-- ==== Sys2Proof/Word.lean ====
section
/-! DEFINITION. The widths the block works in: bytes of the stream, command words, windows and frames. -/

namespace Sys2Proof

/-- One byte of the byte stream (R49). -/
abbrev Byte := BitVec 8

/-- One command word: every command is 64 bits (R60, R71). -/
abbrev Word := BitVec 64

/-- The bytes one read returned, in order of arrival: index 0 is the earliest (R46). The source's RawBuffer (R32). -/
abbrev Window := List Byte

/-- A frame: exactly 7 bytes, `[START, B1, B2, B3, B4, B5, END]` (R8, R46). -/
structure Frame where
  start : Byte
  b1 : Byte
  b2 : Byte
  b3 : Byte
  b4 : Byte
  b5 : Byte
  endByte : Byte
  deriving DecidableEq, Repr

/-- The 7 bytes of a frame, index 0 first (R46). -/
def Frame.bytes (f : Frame) : Window := [f.start, f.b1, f.b2, f.b3, f.b4, f.b5, f.endByte]

end Sys2Proof
end

