-- ==== Sys2Proof/Config.lean ====
section
/-! DEFINITION. What an implementation fixes (READ_LEN, VOUT_TIE, READ_TIMEOUT), the answers the byte source's contract
allows, and the free values the spec leaves open. -/

namespace Sys2Proof

/-- The tie rule of the rounding to 4 decimal places: the parameter VOUT_TIE of D9 and I9. -/
inductive Tie where
  | halfEven   -- the default, which the spec's rules use (R102)
  | halfUp     -- half away from zero, the alternative R105 compares with
  deriving DecidableEq, Repr

/-- The parameters of one block, fixed for its life (R10, D9).
DESIGN CHOICE (log 6, log 7): they are held as data, so that every statement covers every value of them. Safe. -/
structure Config where
  /-- READ_LEN, the byte count one POLL requests (R10). -/
  readLen : Nat
  /-- VOUT_TIE (D9). -/
  voutTie : Tie
  deriving DecidableEq, Repr

/-- The spec's defaults: READ_LEN = 14 (R10) and round half to even (R102, D9). -/
def Config.spec : Config := { readLen := 14, voutTie := .halfEven }

/-- The constraint on the parameters: READ_LEN ≥ 14 (R10). -/
abbrev Config.WellFormed (c : Config) : Prop := 14 ≤ c.readLen

/-- What the byte source answers to SrcAcquire (R44). -/
inductive AcquireAnswer where
  | ok
  | fail
  deriving DecidableEq, Repr, Inhabited

/-- What the byte source answers to SrcRead (R41). -/
inductive ReadAnswer where
  | bytes (w : Window)
  | fail
  deriving DecidableEq, Repr, Inhabited

/-- An answer that keeps the contract "sequence of up to n bytes" (R41). -/
abbrev ReadAnswer.InContract (n : Nat) (a : ReadAnswer) : Prop :=
  match a with
  | .bytes w => w.length ≤ n
  | .fail => True

/-- READ_TIMEOUT, the byte source's read timeout: an OPEN parameter without a default (R11, D14, I8).
No rule of the block reads it and no definition of the model does (log 8). -/
opaque Config.readTimeout : Nat

/-- The answer of the byte source to its `n`-th draw when an acquire is asked and none is listed: free (R44, D30, log 5). -/
opaque Config.freeAcquire : Nat → AcquireAnswer

/-- The answer of the byte source to its `n`-th draw when a read is asked and none is listed: free (R41, I2, log 5). -/
opaque Config.freeRead : Nat → ReadAnswer

/-- Whether the read of a POLL that a reset abandons had already consumed its bytes: free (R191, I13, log 14). -/
opaque Config.freeConsumed : Nat → Bool

/-- CFG_KMODE after RELEASE: unspecified, so free (R29, R151, log 4). -/
opaque Config.freeKmode : Nat → BitVec 1

/-- CFG_KFIX after RELEASE: unspecified, so free (R29, R151, log 4). -/
opaque Config.freeKfix : Nat → BitVec 32

/-- CFG_DPOL after RELEASE: unspecified, so free (R29, R151, log 4). -/
opaque Config.freeDpol : Nat → BitVec 1

end Sys2Proof
end

