-- ==== Sys2Proof/Syntax.lean ====
section
/-! DEFINITION. The block's three commands, one constructor per row of spec/opcode_table.json, and the assembler lines
that stand for them (R73, R74). -/

namespace Sys2Proof

/-- The coefficient strategy: the two values of CFG_KMODE (R26). -/
inductive KMode where
  | stepped   -- 0, legacy mode
  | fixed     -- 1, configured mode
  deriving DecidableEq, Repr

/-- The density policy: the two values of CFG_DPOL (R28). -/
inductive DPol where
  | trunc     -- 0, the product truncated to an integer
  | precise   -- 1, full precision
  deriving DecidableEq, Repr

/-- The commands (R2, R61). -/
inductive Instr where
  /-- INIT: build a session with this strategy, density policy and fixed coefficient in units of 10^-4 (R62, R141). -/
  | init (kmode : KMode) (dpol : DPol) (kfix : BitVec 32)
  /-- POLL: read one measurement (R63, R144). -/
  | poll
  /-- RELEASE: tear the session down (R64, R151). -/
  | release
  deriving DecidableEq, Repr

/-- The `<decimal>` of the assembler's `k=` as it is written: a sign, a whole part, and the digits after the point (R73). -/
structure Decimal where
  negative : Bool
  whole : Nat
  frac : List (Fin 10)
  deriving DecidableEq, Repr

/-- One keyword of an INIT line (R73). -/
inductive InitKeyword where
  | kmode (m : KMode)
  | dpol (p : DPol)
  | k (d : Decimal)
  deriving DecidableEq, Repr

/-- One line of assembler: the three mnemonics of R73, keywords in any order, and the two pseudo-instructions of R74. -/
inductive AsmLine where
  | init (keywords : List InitKeyword)
  | poll
  | release
  | initLegacy
  | initConfigured (k : Decimal)
  deriving DecidableEq, Repr

end Sys2Proof
end

