-- ==== Sys2Proof/WellFormed.lean ====
section
/-! DEFINITION. The checks on syntax: every command is well formed, and what an assembler refuses (R73). -/

namespace Sys2Proof

/-- Every INIT that decodes is a well-formed configuration: both strategies, both policies and every 32-bit K_Q are legal
(R176). POLL and RELEASE have no operands (R63, R64). -/
def Instr.wf : Instr → Bool
  | .init _ _ _ => true
  | .poll => true
  | .release => true

/-- The number the digits stand for, most significant first. -/
def digitsValue : List (Fin 10) → Nat → Nat
  | [], acc => acc
  | d :: ds, acc => digitsValue ds (acc * 10 + d.val)

/-- `<decimal> × 10^4`, for a decimal of at most 4 fractional digits: an integer (R73). -/
def Decimal.kq (d : Decimal) : Nat :=
  d.whole * 10000 + digitsValue d.frac 0 * 10 ^ (4 - d.frac.length)

/-- What an assembler refuses in a `k`: a negative one, one with more than 4 fractional digits, one above 429496.7295
(R73, D23). A minus sign is refused whatever follows it (log 16). -/
def Decimal.wf (d : Decimal) : Bool :=
  !d.negative && decide (d.frac.length ≤ 4) && decide (d.kq ≤ 4294967295)

/-- The strategies, the policies and the coefficients an INIT line names. -/
def kmodesOf (ks : List InitKeyword) : List KMode :=
  ks.filterMap fun | .kmode m => some m | _ => none
def dpolsOf (ks : List InitKeyword) : List DPol :=
  ks.filterMap fun | .dpol p => some p | _ => none
def coefficientsOf (ks : List InitKeyword) : List Decimal :=
  ks.filterMap fun | .k d => some d | _ => none

/-- A line the assembler takes: an INIT names `kmode` once, `dpol` once and `k` at most once, in any order (R73), and
every `k` is one it takes. That a keyword given twice is refused is DEDUCED (log 16). -/
def AsmLine.wf : AsmLine → Bool
  | .init ks =>
    decide ((kmodesOf ks).length = 1) && decide ((dpolsOf ks).length = 1) &&
      decide ((coefficientsOf ks).length ≤ 1) && (coefficientsOf ks).all Decimal.wf
  | .poll => true
  | .release => true
  | .initLegacy => true
  | .initConfigured k => k.wf

end Sys2Proof
end

