-- ==== Sys2Proof/Decode.lean ====
section
/-! DEFINITION. The decoder, total on every 64-bit word (R72), the encoder, and the assembler (R73, R74). -/

namespace Sys2Proof

/-- Why a word is illegal (R69). The hardware does not tell the two apart: both answer ILLEGAL_CMD. -/
inductive IllegalWord where
  | opcode         -- OPC is not 0x01, 0x02 or 0x03
  | reservedBits   -- a bit R60 marks "must be 0" for this OPC is 1
  deriving DecidableEq, Repr

/-- What a word decodes to (R72). -/
inductive Decoded where
  | instr (i : Instr)
  | illegal (why : IllegalWord)
  deriving DecidableEq, Repr

/-- CFG_KMODE's encoding: 0 = STEPPED, 1 = FIXED (R26). -/
def KMode.bit : KMode → BitVec 1
  | .stepped => 0#1
  | .fixed => 1#1
def KMode.ofBit (b : BitVec 1) : KMode := if b = 0#1 then .stepped else .fixed

/-- CFG_DPOL's encoding: 0 = TRUNC, 1 = PRECISE (R28). -/
def DPol.bit : DPol → BitVec 1
  | .trunc => 0#1
  | .precise => 1#1
def DPol.ofBit (b : BitVec 1) : DPol := if b = 0#1 then .trunc else .precise

/-- The field of `len` bits of a word whose lowest bit is bit `lo`: `c[lo+len-1 : lo]`, bit 0 the least significant (R13). -/
def field (c : Word) (lo len : Nat) : BitVec len := c.extractLsb' lo len

/-- OPC, `c[7:0]` (R60). -/
def opc (c : Word) : BitVec 8 := field c 0 8
/-- The bits that are not OPC, `c[63:8]`: all reserved for POLL and RELEASE (R60). -/
def aboveOpc (c : Word) : BitVec 56 := field c 8 56
/-- INIT's reserved bits `c[15:10]` (R60). -/
def res0 (c : Word) : BitVec 6 := field c 10 6
/-- INIT's reserved bits `c[63:48]` (R60). -/
def res1 (c : Word) : BitVec 16 := field c 48 16
/-- KMODE, `c[8]` (R62). -/
def kmodeField (c : Word) : KMode := KMode.ofBit (field c 8 1)
/-- DPOL, `c[9]` (R62). -/
def dpolField (c : Word) : DPol := DPol.ofBit (field c 9 1)
/-- KFIX, `c[47:16]`, unsigned (R62, R65). -/
def kfixField (c : Word) : BitVec 32 := field c 16 32

/-- decode of R72: the OPC selects the command, and a set reserved bit makes the word illegal. -/
def decode (c : Word) : Decoded :=
  if opc c = 0x01#8 then
    if res0 c = 0#6 ∧ res1 c = 0#16 then .instr (.init (kmodeField c) (dpolField c) (kfixField c))
    else .illegal .reservedBits
  else if opc c = 0x02#8 then
    if aboveOpc c = 0#56 then .instr .poll else .illegal .reservedBits
  else if opc c = 0x03#8 then
    if aboveOpc c = 0#56 then .instr .release else .illegal .reservedBits
  else .illegal .opcode

/-- encode of R72: `zext_64({kf, 000000, dp, km, 0x01})`, `0x2` and `0x3`. -/
def encode : Instr → Word
  | .init km dp kf => (kf ++ 0#6 ++ dp.bit ++ km.bit ++ 0x01#8).setWidth 64
  | .poll => 0x0000000000000002#64
  | .release => 0x0000000000000003#64

/-- The command word of a table row's `nbits` bits `w`, every bit above them 0. The table and the command word number their
bits alike, bit 0 the least significant (R13, R60). A command word has no byte order (log 2). -/
def tableWord (nbits w : Nat) : Word := BitVec.ofNat 64 (w % 2 ^ nbits)

/-- The instruction the decoder reads from a table row's bits. -/
def decodeTableWord (nbits w : Nat) : Option Instr :=
  match decode (tableWord nbits w) with
  | .instr i => some i
  | .illegal _ => none

/-- The K_Q a decimal assembles to (R73). -/
def Decimal.kfix (d : Decimal) : BitVec 32 := BitVec.ofNat 32 d.kq

/-- The command a line of assembler stands for: none where the assembler refuses it (R73). An omitted `k` is 0 (R73).
The pseudo-instructions expand as R74 says. -/
def assemble (l : AsmLine) : Option Instr :=
  if l.wf then
    match l with
    | .init ks =>
      match kmodesOf ks, dpolsOf ks with
      | m :: _, p :: _ => some (.init m p (((coefficientsOf ks).head?.map Decimal.kfix).getD 0#32))
      | _, _ => none
    | .poll => some .poll
    | .release => some .release
    | .initLegacy => some (.init .stepped .trunc 0#32)
    | .initConfigured k => some (.init .fixed .precise k.kfix)
  else none

end Sys2Proof
end

