-- ==== Sys2Proof/Machine/State.lean ====
section
/-! DEFINITION. The block's state as plain data, with what surrounds it: the caller's events, the byte source's answers,
and the records of what went out. -/

namespace Sys2Proof.Machine

/-- SESS: 2 bits, so four values (R23). -/
inductive Sess where
  | closed      -- 0: no session exists, handle not held
  | opened      -- 1: a session exists and its last source access succeeded, handle held
  | failed      -- 2: a session exists but the source has failed, handle held
  | unassigned  -- 3: never written by any rule, refused by every command (R178(c))
  deriving DecidableEq, Repr

/-- CFG, the configuration register: its three fields (R25). -/
structure Cfg where
  /-- CFG_KMODE (R26). -/
  kmode : KMode
  /-- CFG_KFIX, in units of 10^-4 (R27). -/
  kfix : BitVec 32
  /-- CFG_DPOL (R28). -/
  dpol : DPol
  deriving DecidableEq, Repr

/-- STATUS of a response (R67). -/
inductive Status where
  | ok
  | reading
  | unavailable
  | sourceUnavailable
  | illegalCmd
  | illegalState
  deriving DecidableEq, Repr

/-- Why no frame was found: the three cases of REASON other than NONE (R68). -/
inductive NoFrame where
  | empty
  | noStart
  | truncated
  deriving DecidableEq, Repr

/-- The response record (R66). `reason = none` is REASON 0, NONE. -/
structure Response where
  status : Status
  reason : Option NoFrame
  dpol : DPol
  voutQ : BitVec 32
  kQ : BitVec 32
  densQ : BitVec 64
  deriving DecidableEq, Repr

/-- One call of a byte-source primitive with its answer (R15, R41, R44, R45). -/
inductive SourceCall where
  | acquire (a : AcquireAnswer)
  | read (n : Nat) (a : ReadAnswer)
  | release
  deriving DecidableEq, Repr

/-- What reaches the block from outside (log 1). -/
inductive Event where
  /-- The caller issues one command word, none being outstanding (R155). -/
  | command (c : Word)
  /-- The caller issues `c` while `outstanding` is not answered yet (R186, R195). -/
  | overlapping (outstanding c : Word)
  /-- The caller issues `c` while another block uses the same source handle (R186, R195). -/
  | sharedHandle (c : Word)
  /-- Reset between commands (R190). -/
  | reset
  /-- Reset while `c` is being performed (R191). -/
  | resetDuring (c : Word)
  deriving DecidableEq, Repr

/-- The block's architectural state (R20: `sess` and `cfg`) and the model's own fields beside it (log 1, 5, 6, 9, 15). -/
structure State where
  /-- SESS (R23). -/
  sess : Sess
  /-- CFG_KMODE, CFG_KFIX, CFG_DPOL (R25). -/
  cfg : Cfg
  /-- The parameters of this block; no step writes them (log 6, log 7). -/
  config : Config
  /-- What reaches the block from outside, the next event first (log 1). -/
  pending : List Event
  /-- The byte source's next answers to SrcAcquire (log 5). -/
  acquireAnswers : List AcquireAnswer
  /-- The byte source's next answers to SrcRead (log 5). -/
  readAnswers : List ReadAnswer
  /-- The responses the caller has received, newest first (R34, log 9). -/
  responses : List Response
  /-- The byte-source calls made so far, newest first (log 9). -/
  sourceCalls : List SourceCall
  /-- How many free values have been drawn (log 15). -/
  draws : Nat
  deriving DecidableEq, Repr

/-- A model fault. There is none: what the block reports is a response, and what the model gives no meaning is a refusal
(R189, log 12). -/
inductive Fault where
  deriving DecidableEq, Repr

/-- The refusals of R178, and the host's notModelled. A refusal stops the run where hardware might go on: safe. -/
inductive Refusal where
  /-- No meaning given yet. Raised by no arm of exec. Safe. -/
  | notModelled (mnemonic : String)
  /-- The byte source answered a read with more bytes than asked. Raised by POLL (R178(a), R42). Safe. -/
  | answerTooLong
  /-- Two commands overlap on one block, or two blocks share one handle. Raised by the step on such an event
  (R178(b), R186). Safe. -/
  | concurrentUse
  /-- SESS holds 3, which no rule writes. Raised by every command (R178(c), R23). Safe. -/
  | sessUnassigned
  /-- A rule read CFG while it is unspecified. Raised by the accessor of CFG while SESS = CLOSED, which no command
  reaches (R178(d), R29, log 12). Safe. -/
  | cfgUnspecified
  deriving DecidableEq, Repr

/-- What one step answers. -/
abbrev Outcome := Host.Outcome State Fault Refusal

/-- CFG right after reset. The spec leaves it unspecified and never read (R29, R190).
DESIGN CHOICE (log 3): STEPPED, 0, TRUNC. Unsafe. -/
def Cfg.reset : Cfg := { kmode := .stepped, kfix := 0#32, dpol := .trunc }

/-- The machine right after reset: SESS = CLOSED (R190), the spec's default parameters, and nothing sent or received. -/
def State.reset : State where
  sess := .closed
  cfg := Cfg.reset
  config := Config.spec
  pending := []
  acquireAnswers := []
  readAnswers := []
  responses := []
  sourceCalls := []
  draws := 0

end Sys2Proof.Machine
end

