-- ==== Sys2Proof/Machine/Operands.lean ====
section
/-! DEFINITION. The operands the commands and units read: INIT's operands as a CFG value, CFG itself, and the sample of a frame. -/

namespace Sys2Proof.Machine

/-- SESS's encoding in 2 bits (R23). -/
def Sess.code : Sess → BitVec 2
  | .closed => 0#2
  | .opened => 1#2
  | .failed => 2#2
  | .unassigned => 3#2

/-- INIT's operands as the value it writes to CFG: KFIX as it stands, not scaled, shifted or sign-extended (R62, R65). -/
def initOperand (km : KMode) (dp : DPol) (kf : BitVec 32) : Cfg := { kmode := km, kfix := kf, dpol := dp }

/-- A read of CFG: refused while SESS = CLOSED, where CFG holds no value (R29, R178(d), log 12). -/
def State.readCfg (s : State) : Except Refusal Cfg :=
  if s.sess = .closed then .error .cfgUnspecified else .ok s.cfg

/-- RAW = `zext_16(F[1]) * 256 + zext_16(F[2])`: big-endian, 16 bits, not masked (R47, R100). -/
def rawOf (f : Frame) : BitVec 16 := f.b1.setWidth 16 * 256#16 + f.b2.setWidth 16

/-- `zext_64`, how K_Q and VOUT_Q enter the product: no field is sign-extended (R65, R126). -/
def zext64 {n : Nat} (v : BitVec n) : BitVec 64 := v.setWidth 64

end Sys2Proof.Machine
end

