-- ==== Sys2Proof/Machine/Flags.lean ====
section
/-! DEFINITION. The block has no flags that persist (R31): each command's outcome is the STATUS and REASON of its response.
Their codes, and the response records the rules build. -/

namespace Sys2Proof.Machine

/-- STATUS codes, 4 bits (R67). -/
def Status.code : Status → BitVec 4
  | .ok => 0#4
  | .reading => 1#4
  | .unavailable => 2#4
  | .sourceUnavailable => 3#4
  | .illegalCmd => 4#4
  | .illegalState => 5#4

/-- REASON codes, 2 bits (R68). -/
def reasonCode : Option NoFrame → BitVec 2
  | none => 0#2
  | some .empty => 1#2
  | some .noStart => 2#2
  | some .truncated => 3#2

/-- A response whose fields other than STATUS and REASON are 0 (R66, D32). -/
def Response.blank (st : Status) (reason : Option NoFrame) : Response :=
  { status := st, reason := reason, dpol := .trunc, voutQ := 0#32, kQ := 0#32, densQ := 0#64 }

/-- The response of an INIT or RELEASE that succeeded (R141, R151). -/
def okResponse : Response := Response.blank .ok none

/-- The response of `raise st` (R171). -/
def raiseResponse (st : Status) : Response := Response.blank st none

/-- The response of a POLL that found no frame (R148). -/
def unavailableResponse (why : NoFrame) : Response := Response.blank .unavailable (some why)

/-- The response of a POLL that decoded a frame (R149). VOUT_Q, of 22 bits, stands in a field of 32 (R66). -/
def readingResponse (dp : DPol) (v : BitVec 22) (k : BitVec 32) (d : BitVec 64) : Response :=
  { status := .reading, reason := none, dpol := dp, voutQ := v.setWidth 32, kQ := k, densQ := d }

end Sys2Proof.Machine
end

