-- ==== Sys2Proof/Machine/Ops.lean ====
section
/-! DEFINITION. The shared operations: responding, raising (how the block takes an exception), the byte-source primitives,
the session cases, and reset. -/

namespace Sys2Proof.Machine

/-- `respond(r)`: the caller receives `r` (R15, R66). -/
def State.respond (s : State) (r : Response) : State := { s with responses := r :: s.responses }

/-- `raise st`, how every fault is reported: a response with STATUS alone. It saves no state, changes no mode and transfers
no control (R15, R171, R180). There is no return from it (R181). -/
def State.raise (s : State) (st : Status) : State := s.respond (raiseResponse st)

/-- `S.SESS <- x`. -/
def State.setSess (s : State) (x : Sess) : State := { s with sess := x }

/-- Writes all three fields of CFG at once (R25). -/
def State.setCfg (s : State) (c : Cfg) : State := { s with cfg := c }

/-- `CFG_KMODE, CFG_DPOL, CFG_KFIX <- unspecified` (R151): free values (log 4). -/
def State.forgetCfg (s : State) : State :=
  { s with
    cfg := { kmode := KMode.ofBit (Config.freeKmode s.draws), kfix := Config.freeKfix s.draws,
             dpol := DPol.ofBit (Config.freeDpol s.draws) }
    draws := s.draws + 1 }

/-- The answer the byte source gives to the next SrcAcquire: the next one listed, else a free draw (R44, log 5). -/
def State.nextAcquire (s : State) : AcquireAnswer :=
  match s.acquireAnswers with
  | a :: _ => a
  | [] => Config.freeAcquire s.draws

/-- SrcAcquire() has been called and answered (R44). -/
def State.acquireCalled (s : State) : State :=
  { s with
    acquireAnswers := s.acquireAnswers.tail
    sourceCalls := .acquire s.nextAcquire :: s.sourceCalls
    draws := s.draws + 1 }

/-- A free draw kept within the contract of a read of `n` bytes: every answer the contract allows, and no other (R41). -/
def clipAnswer (n : Nat) : ReadAnswer → ReadAnswer
  | .bytes w => .bytes (w.take n)
  | .fail => .fail

/-- The answer the byte source gives to the next SrcRead(READ_LEN): the next one listed, else a free draw within the
contract (R41, log 5). A listed answer may break the contract, and it is not cut down (R42). -/
def State.nextRead (s : State) : ReadAnswer :=
  match s.readAnswers with
  | a :: _ => a
  | [] => clipAnswer s.config.readLen (Config.freeRead s.draws)

/-- SrcRead(READ_LEN) has been called and answered, and what it delivered is consumed (R41, R43, R81). -/
def State.readCalled (s : State) : State :=
  { s with
    readAnswers := s.readAnswers.tail
    sourceCalls := .read s.config.readLen s.nextRead :: s.sourceCalls
    draws := s.draws + 1 }

/-- SrcRelease() has been called; it cannot fail (R45). -/
def State.releaseCalled (s : State) : State := { s with sourceCalls := .release :: s.sourceCalls }

/-- The case of SESS a command stands in. With SESS = 3 every command is refused (R23, R178(c)). -/
def State.bySession (s : State) (closed opened failed : Outcome) : Outcome :=
  match s.sess with
  | .closed => closed
  | .opened => opened
  | .failed => failed
  | .unassigned => .refused .sessUnassigned

/-- A held handle is given back (R45, R191). -/
def State.giveBack (s : State) : State := if s.sess = .closed then s else s.releaseCalled

/-- Reset: a held handle is given back once, and every field of the block's state takes its reset value (R190, R191).
What surrounds the block stays, and no response is made (R191). A reset finds SESS = 3 as any other value (log 10). -/
def State.hardReset (s : State) : State := { s.giveBack with sess := State.reset.sess, cfg := State.reset.cfg }

/-- What is left of a POLL that a reset abandons: the read of an open session may have consumed its bytes or not, which is
free (R191, I13, log 14). -/
def State.abandonPoll (s : State) : State :=
  if s.sess = .opened ∧ Config.freeConsumed s.draws = true then s.readCalled
  else { s with draws := s.draws + 1 }

end Sys2Proof.Machine
end

