-- ==== Sys2Proof/Machine/Framer.lean ====
section
/-! DEFINITION. FrameReader (40_framer.md): the search of a window for the first START. -/

namespace Sys2Proof.Machine

/-- FRAME_LEN (R8). -/
def frameLen : Nat := 7

/-- START, the one byte the framer matches (R9). -/
def startByte : Byte := 0xAA#8

/-- END_NOMINAL (R9). No definition compares anything with it (R85). -/
def endNominal : Byte := 0xFF#8

/-- What FRAME returns (R80). -/
inductive FrameResult where
  | noFrame (why : NoFrame)
  | frame (f : Frame)
  deriving DecidableEq, Repr

/-- `Frame(W[i .. i+6])`: the 7 bytes from index `i` as they are (R82, R88). Used only where they exist. -/
def frameAt (w : Window) (i : Nat) : Frame :=
  { start := w.getD i 0#8, b1 := w.getD (i + 1) 0#8, b2 := w.getD (i + 2) 0#8, b3 := w.getD (i + 3) 0#8
    b4 := w.getD (i + 4) 0#8, b5 := w.getD (i + 5) 0#8, endByte := w.getD (i + 6) 0#8 }

/-- FRAME (R82): EMPTY before NO_START before TRUNCATED (R177), and the frame at the first START otherwise (R83, R84). -/
def frameSearch (w : Window) : FrameResult :=
  if w.length = 0 then .noFrame .empty
  else
    match w.findIdx? (fun b => b == startByte) with
    | none => .noFrame .noStart
    | some i => if w.length - i < frameLen then .noFrame .truncated else .frame (frameAt w i)

end Sys2Proof.Machine
end

