-- ==== Sys2Proof/Machine/Scaler.lean ====
section
/-! DEFINITION. FrameDecoder (41_scaler.md): the sample of a frame as a voltage in units of 10^-4 V. -/

namespace Sys2Proof.Machine

/-- RNE(n, d): `n / d` to the nearest integer, ties to even (R14). -/
def rne (n d : Nat) : Nat :=
  if 2 * (n % d) > d then n / d + 1
  else if 2 * (n % d) = d ∧ n / d % 2 = 1 then n / d + 1
  else n / d

/-- `n / d` to the nearest integer, ties away from zero: the other value of VOUT_TIE (R105, D9, log 7). -/
def roundHalfUp (n d : Nat) : Nat := if 2 * (n % d) ≥ d then n / d + 1 else n / d

/-- The rounding VOUT_TIE selects (D9). -/
def roundBy : Tie → Nat → Nat → Nat
  | .halfEven => rne
  | .halfUp => roundHalfUp

/-- VOUT_Q of a sample: `RAW * 3125 / 64` rounded (R102), in 22 bits (R104). -/
def voutOfRaw (t : Tie) (raw : BitVec 16) : BitVec 22 := BitVec.ofNat 22 (roundBy t (raw.toNat * 3125) 64)

/-- DECODE (R103). -/
def decodeFrame (t : Tie) (f : Frame) : BitVec 22 := voutOfRaw t (rawOf f)

end Sys2Proof.Machine
end

