-- ==== Sys2Proof/Machine/Calibration.lean ====
section
/-! DEFINITION. DensityModel (42_calibration.md): the stepped-K ROM, the coefficient and the density. -/

namespace Sys2Proof.Machine

/-- One entry of the stepped-K ROM: the exclusive upper bound of a band in units of 10^-4 V, and its coefficient (R30). -/
structure Band where
  boundQ : Nat
  kint : Nat
  deriving DecidableEq, Repr

/-- KTAB[0] to KTAB[12] (R30). Nothing writes it. -/
def ktab : List Band :=
  [⟨460, 200⟩, ⟨490, 400⟩, ⟨520, 600⟩, ⟨550, 750⟩, ⟨590, 900⟩, ⟨650, 1000⟩, ⟨710, 1250⟩, ⟨760, 1400⟩, ⟨810, 1700⟩,
   ⟨860, 1800⟩, ⟨910, 1900⟩, ⟨1010, 2000⟩, ⟨1110, 2200⟩]

/-- KFALLBACK (R30). -/
def kfallback : Nat := 3000

/-- The coefficient of the first band whose bound is above `v`, else the fallback (R122). -/
def lookupBand (v : Nat) : List Band → Nat
  | [] => kfallback
  | b :: bs => if v < b.boundQ then b.kint else lookupBand v bs

/-- COEFF_STEPPED: the integer coefficient in units of 10^-4 (R120, R122). -/
def coeffStepped (v : BitVec 22) : BitVec 32 := BitVec.ofNat 32 (lookupBand v.toNat ktab * 10000)

/-- COEFF_FIXED: CFG_KFIX, whatever Vout is (R125). -/
def coeffFixed (c : Cfg) (_v : BitVec 22) : BitVec 32 := c.kfix

/-- COEFF: the strategy INIT chose (R121). -/
def coeff (c : Cfg) (v : BitVec 22) : BitVec 32 :=
  match c.kmode with
  | .stepped => coeffStepped v
  | .fixed => coeffFixed c v

/-- The density product, in units of 10^-8 µg/m³ (R126). -/
def product (k : BitVec 32) (v : BitVec 22) : BitVec 64 := zext64 k * zext64 v

/-- DENSITY (R128, R131). -/
def density (dp : DPol) (k : BitVec 32) (v : BitVec 22) : BitVec 64 :=
  match dp with
  | .trunc => product k v / 100000000#64 * 100000000#64
  | .precise => product k v

/-- DECODE, COEFF and DENSITY of a frame, as POLL responds with them (R144, R149). -/
def readingOf (t : Tie) (c : Cfg) (f : Frame) : Response :=
  readingResponse c.dpol (decodeFrame t f) (coeff c (decodeFrame t f)) (density c.dpol (coeff c (decodeFrame t f)) (decodeFrame t f))

end Sys2Proof.Machine
end

