-- ==== Sys2Proof/Machine/Session.lean ====
section
/-! DEFINITION. SensorSession (43_session.md): the meanings of INIT, POLL and RELEASE, and of an illegal word. -/

namespace Sys2Proof.Machine

/-- INIT (R141, R142, R143). -/
def execInit (km : KMode) (dp : DPol) (kf : BitVec 32) (s : State) : Outcome :=
  s.bySession
    (closed := .next
      (match s.nextAcquire with
      | .fail => s.acquireCalled.raise .sourceUnavailable
      | .ok => ((s.acquireCalled.setCfg (initOperand km dp kf)).setSess .opened).respond okResponse))
    (opened := .next (s.raise .illegalState))
    (failed := .next (s.raise .illegalState))

/-- What POLL makes of a window, its read having been made: no frame (R148), or a reading (R149). -/
def pollWindow (w : Window) (s : State) : Outcome :=
  match frameSearch w with
  | .noFrame why => .next (s.respond (unavailableResponse why))
  | .frame f =>
    match s.readCfg with
    | .error r => .refused r
    | .ok c => .next (s.respond (readingOf s.config.voutTie c f))

/-- POLL in an open session: one read (R81), which may fail (R147) or deliver more than was asked (R42). -/
def pollOpened (s : State) : Outcome :=
  match s.nextRead with
  | .fail => .next ((s.readCalled.setSess .failed).raise .sourceUnavailable)
  | .bytes w => if s.config.readLen < w.length then .refused .answerTooLong else pollWindow w s.readCalled

/-- POLL (R144 to R149). -/
def execPoll (s : State) : Outcome :=
  s.bySession
    (closed := .next (s.raise .illegalState))
    (opened := pollOpened s)
    (failed := .next (s.raise .sourceUnavailable))

/-- A session torn down: the handle given back, SESS closed, CFG unspecified (R151). -/
def tearDown (s : State) : State := ((s.releaseCalled.setSess .closed).forgetCfg).respond okResponse

/-- RELEASE (R151, R152). From CLOSED it changes nothing and responds OK. -/
def execRelease (s : State) : Outcome :=
  s.bySession
    (closed := .next (s.respond okResponse))
    (opened := .next (tearDown s))
    (failed := .next (tearDown s))

/-- An illegal word: ILLEGAL_CMD in every session state, nothing else (R69, R153). -/
def illegalCommand (s : State) : Outcome :=
  s.bySession
    (closed := .next (s.raise .illegalCmd))
    (opened := .next (s.raise .illegalCmd))
    (failed := .next (s.raise .illegalCmd))

end Sys2Proof.Machine
end

