-- ==== Sys2Proof/Machine/Dispatch.lean ====
section
/-! DEFINITION. One arm per command. -/

namespace Sys2Proof.Machine

def exec (i : Instr) (s : State) : Host.Outcome State Fault Refusal :=
  match i with
  | .init km dp kf => Sys2Proof.Machine.execInit km dp kf s
  | .poll => Sys2Proof.Machine.execPoll s
  | .release => Sys2Proof.Machine.execRelease s

end Sys2Proof.Machine
end

