-- ==== Sys2Proof/Machine/Issue.lean ====
section
/-! DEFINITION. What one event from outside does to the block: a command, a concurrent use, a reset. -/

namespace Sys2Proof.Machine

/-- One command word performed: decoded first, then executed (R140, R153, R177). -/
def perform (c : Word) (s : State) : Outcome :=
  match decode c with
  | .instr i => exec i s
  | .illegal _ => illegalCommand s

/-- What a reset leaves of the command it abandons: nothing but, for POLL, perhaps a consumed read (R191, log 14). -/
def abandon (c : Word) (s : State) : State :=
  match decode c with
  | .instr .poll => s.abandonPoll
  | .instr (.init _ _ _) => s
  | .instr .release => s
  | .illegal _ => s

/-- The block meets one event: overlapping commands and a shared handle are refused (R178(b), R186, log 13), a reset
during a command abandons it without a response (R191). -/
def meet (e : Event) (s : State) : Outcome :=
  match e with
  | .command c => perform c s
  | .overlapping _ _ => .refused .concurrentUse
  | .sharedHandle _ => .refused .concurrentUse
  | .reset => .next s.hardReset
  | .resetDuring c => .next (abandon c s).hardReset

/-- The event has been taken from the caller's list. -/
def State.withPending (s : State) (es : List Event) : State := { s with pending := es }

/-- One step: the next event is met, one at a time, in order (R52, R140). With none the block idles and holds its state
(R156, R188, log 11). -/
def stepEvent (s : State) : Outcome :=
  match s.pending with
  | [] => .next s
  | e :: es => meet e (s.withPending es)

/-- The caller issues the table word next (log 2). -/
def issueTableWord (s : State) (nbits w : Nat) : State := s.withPending (.command (tableWord nbits w) :: s.pending)

end Sys2Proof.Machine
end

