-- ==== Sys2Proof/Machine/Step.lean ====
section
/-! DEFINITION. One step of the machine, and the command it performs next. -/

namespace Sys2Proof.Machine

/-- step of R140 over the events still to come. -/
def step (s : State) : Host.Outcome State Fault Refusal := stepEvent s

/-- `s` with the table word as the command the caller issues next, before the events already pending (log 2). -/
def State.withFetchWord (s : State) (nbits w : Nat) : State := issueTableWord s nbits w

end Sys2Proof.Machine
end

