-- ==== Sys2Proof/Machine/Contract.lean ====
section
/-! DEFINITION. The block's exposed contract, `poll() -> {vout, k, density} | Unavailable`, in exact decimals (R66), and the
decimals of the assembler. -/

namespace Sys2Proof.Machine

/-- The structured result of a reading: volts, coefficient, µg/m³ (R66, R149). -/
structure Measurement where
  vout : Rat
  k : Rat
  density : Rat
  deriving DecidableEq, Repr

/-- The decimals a response carries: `VOUT_Q / 10^4`, `K_Q / 10^4` and `DENS_Q / 10^8` when STATUS = READING, and no
measurement otherwise (R66, R107). -/
def Response.measurement (r : Response) : Option Measurement :=
  if r.status = .reading then
    some { vout := (r.voutQ.toNat : Rat) / 10000, k := (r.kQ.toNat : Rat) / 10000, density := (r.densQ.toNat : Rat) / 100000000 }
  else none

/-- V_EXACT: the exact voltage of a sample, `RAW * 5 / 1024` (R101). -/
def vExact (raw : Nat) : Rat := (raw : Rat) * 5 / 1024

/-- The value of digits after the point. -/
def fracValue : List (Fin 10) → Rat
  | [] => 0
  | d :: ds => ((d.val : Rat) + fracValue ds) / 10

/-- The number a `<decimal>` of the assembler is, its sign apart (R73). -/
def decimalValue (d : Decimal) : Rat := (d.whole : Rat) + fracValue d.frac

end Sys2Proof.Machine
end

