-- ==== Sys2Proof/Safety.lean ====
section
/-! DEFINITION. The terms claims use: illegal words as numbers, the handle count, well-formed responses, the invariant of
every step, and the end of a run. -/

namespace Sys2Proof.Machine

/-- R69 on the number a word is: its OPC is none of 1, 2 and 3, or a bit that R60 reserves for its OPC is set. -/
def IllegalNumber (n : Nat) : Prop :=
  (n % 256 ≠ 1 ∧ n % 256 ≠ 2 ∧ n % 256 ≠ 3) ∨
  (n % 256 = 1 ∧ (n / 2 ^ 10 % 2 ^ 6 ≠ 0 ∨ n / 2 ^ 48 % 2 ^ 16 ≠ 0)) ∨
  ((n % 256 = 2 ∨ n % 256 = 3) ∧ n / 2 ^ 8 % 2 ^ 56 ≠ 0)

/-- What one call adds to the count of handles held: +1 for an acquire answered OK, -1 for a release (95_test_vectors.md
Part 3). -/
def SourceCall.handleChange : SourceCall → Int
  | .acquire .ok => 1
  | .acquire .fail => 0
  | .read _ _ => 0
  | .release => -1

/-- The handles held after these calls. -/
def handleCount (calls : List SourceCall) : Int := (calls.map SourceCall.handleChange).sum

/-- A response record as R66 to R68 allow it: fields are 0 outside a READING, REASON goes with UNAVAILABLE alone, and a
READING's density is the product under its policy (R126, R128) of values within R104's range. -/
structure Response.WellFormed (r : Response) : Prop where
  zero_unless_reading : r.status ≠ .reading → r.dpol = .trunc ∧ r.voutQ = 0#32 ∧ r.kQ = 0#32 ∧ r.densQ = 0#64
  reason_iff_unavailable : r.reason.isSome = true ↔ r.status = .unavailable
  vout_in_range : r.voutQ.toNat ≤ 3199951
  density_precise : r.dpol = .precise → r.densQ.toNat = r.kQ.toNat * r.voutQ.toNat
  density_trunc : r.dpol = .trunc → r.densQ.toNat = r.kQ.toNat * r.voutQ.toNat / 100000000 * 100000000

/-- What every step keeps: SESS is one of the three states of R23 (R35(a)), the parameters meet R10, one handle is held
when SESS ≠ CLOSED and none otherwise (R35(c)), and every response given is well formed (R66). -/
structure State.Inv (s : State) : Prop where
  sess_assigned : s.sess ≠ .unassigned
  config_wf : s.config.WellFormed
  handle_balance : handleCount s.sourceCalls = if s.sess = .closed then 0 else 1
  responses_wf : ∀ r ∈ s.responses, r.WellFormed

/-- Every answer the byte source is listed to give keeps its contract (R41). -/
def State.SourceInContract (s : State) : Prop := ∀ a ∈ s.readAnswers, a.InContract s.config.readLen

/-- The end of a run: no event is left (R156). -/
def State.Final (s : State) : Prop := s.pending = []

/-- One step is safe: it is not refused, and it does not fault (R178, R189). -/
def State.StepSafe (s : State) : Prop := ∃ t, step s = .next t

/-- A run of `n` steps is safe: no step of it is refused (R156, R178). -/
def State.RunSafe (n : Nat) (s : State) : Prop := ∃ t, Sys2Proof.core.run n s = .next t

end Sys2Proof.Machine
end

