-- ==== Sys2Proof/Certificates/Slice0/Obligations.lean ====
section
/-! DEFINITION. The statements for the provers. `Response` literals are written out field by field: status, reason, dpol,
voutQ, kQ, densQ. -/

open Sys2Proof Sys2Proof.Machine

/-! ## Words -/

/-- Words written out from R60's layout decode as 95_test_vectors.md section 2.6 says (W1, W2, W5, W8, W9, W11, W12, W13,
W16, W17, W19, W20). -/
def Obligations.DecodesWordsWrittenFromTheSpec : Prop :=
  decode 0x0000000000000001#64 = .instr (.init .stepped .trunc 0#32) ∧
  decode 0x0000000000000201#64 = .instr (.init .stepped .precise 0#32) ∧
  decode 0x000000003A980301#64 = .instr (.init .fixed .precise 15000#32) ∧
  decode 0x0000FFFFFFFF0301#64 = .instr (.init .fixed .precise 4294967295#32) ∧
  decode 0x0000800000000001#64 = .instr (.init .stepped .trunc 0x80000000#32) ∧
  decode 0x0000000000000002#64 = .instr .poll ∧
  decode 0x0000000000000003#64 = .instr .release ∧
  decode 0x0000000000000000#64 = .illegal .opcode ∧
  decode 0x0000000000000401#64 = .illegal .reservedBits ∧
  decode 0x0001000000000001#64 = .illegal .reservedBits ∧
  decode 0x0000000000000102#64 = .illegal .reservedBits ∧
  decode 0x0000000000010003#64 = .illegal .reservedBits

/-- Every well-formed command survives encoding and decoding, with every operand at every value (R72). -/
def Obligations.DecodeOfEncodeIsTheCommand : Prop :=
  ∀ i : Instr, i.wf = true → decode (encode i) = .instr i

/-- R72's round trip: every legal word is the encoding of what it decodes to. -/
def Obligations.EncodeOfDecodeIsTheWord : Prop :=
  ∀ (c : Word) (i : Instr), decode c = .instr i → encode i = c

/-- The match and mask of R62, R63 and R64 select exactly the words that decode to each command. -/
def Obligations.LegalWordsAreTheMatchAndMaskRows : Prop :=
  ∀ c : Word,
    ((∃ km dp kf, decode c = .instr (.init km dp kf)) ↔ c &&& 0xFFFF00000000FCFF#64 = 0x0000000000000001#64) ∧
    (decode c = .instr .poll ↔ c &&& 0xFFFFFFFFFFFFFFFF#64 = 0x0000000000000002#64) ∧
    (decode c = .instr .release ↔ c &&& 0xFFFFFFFFFFFFFFFF#64 = 0x0000000000000003#64)

/-- R69's first sentence, on the number the word is: illegal words are those with another OPC or a reserved bit set. -/
def Obligations.IllegalWordsAreExactlyThoseNamed : Prop :=
  ∀ c : Word, (∃ why, decode c = .illegal why) ↔ IllegalNumber c.toNat

/-- R62, whole: an INIT is legal exactly with the match and mask, which say that c[15:10] and c[63:48] are 0, and an INIT
word's bit 8, bit 9 and bits 47:16 reach CFG_KMODE, CFG_DPOL and CFG_KFIX when the session opens, KFIX neither extended with
signs nor scaled (R65). -/
def Obligations.InitWordFieldsReachCfg : Prop :=
  (∀ c : Word, ((∃ km dp kf, decode c = .instr (.init km dp kf)) ↔ c &&& 0xFFFF00000000FCFF#64 = 0x0000000000000001#64) ∧
    (c &&& 0xFFFF00000000FCFF#64 = 0x0000000000000001#64 ↔
      c.toNat % 2 ^ 8 = 1 ∧ c.toNat / 2 ^ 10 % 2 ^ 6 = 0 ∧ c.toNat / 2 ^ 48 % 2 ^ 16 = 0)) ∧
  ∀ (s : State) (c : Word) (es : List Event),
    s.pending = .command c :: es → c &&& 0xFFFF00000000FCFF#64 = 0x0000000000000001#64 →
    s.sess = .closed → s.nextAcquire = .ok →
    ∃ t, step s = .next t ∧ t.sess = .opened ∧
      (t.cfg.kmode = if c.toNat / 2 ^ 8 % 2 = 1 then .fixed else .stepped) ∧
      (t.cfg.dpol = if c.toNat / 2 ^ 9 % 2 = 1 then .precise else .trunc) ∧
      t.cfg.kfix.toNat = c.toNat / 2 ^ 16 % 2 ^ 32

/-! ## The step -/

/-- When the next event is a command word that decodes to a well-formed command, the step is that command's meaning, the
word taken from the caller's list (R140). -/
def Obligations.StepPerformsTheDecodedCommand : Prop :=
  ∀ (s : State) (c : Word) (es : List Event) (i : Instr),
    s.pending = .command c :: es → decode c = .instr i → i.wf = true → step s = exec i { s with pending := es }

/-- R69, R153, R173: an illegal word, in every session state, answers ILLEGAL_CMD with every other field 0, calls no
source primitive and changes nothing. -/
def Obligations.IllegalWordAnswersIllegalCmd : Prop :=
  ∀ (s : State) (c : Word) (es : List Event),
    s.pending = .command c :: es → IllegalNumber c.toNat → s.sess ≠ .unassigned →
    step s = .next { s with
      pending := es
      responses := ⟨.illegalCmd, none, .trunc, 0#32, 0#32, 0#64⟩ :: s.responses }

/-- Between commands the block is idle and holds its state (R188). The idle step is the model's own (log 11). -/
def Obligations.IdleStepHoldsTheState : Prop :=
  ∀ s : State, s.pending = [] → step s = .next s

/-! ## INIT -/

/-- R141 to R143, whole: INIT opens a session from CLOSED when the acquire is answered OK, leaves the block as it was when
it is answered FAIL, and is ILLEGAL_STATE in a session. Everything not named is unchanged. `draws` is the model's counter. -/
def Obligations.InitBuildsASessionFromClosed : Prop :=
  ∀ (km : KMode) (dp : DPol) (kf : BitVec 32) (s : State),
    (s.sess = .closed → s.nextAcquire = .ok →
      exec (.init km dp kf) s = .next { s with
        sess := .opened
        cfg := ⟨km, kf, dp⟩
        acquireAnswers := s.acquireAnswers.tail
        sourceCalls := .acquire .ok :: s.sourceCalls
        draws := s.draws + 1
        responses := ⟨.ok, none, .trunc, 0#32, 0#32, 0#64⟩ :: s.responses }) ∧
    (s.sess = .closed → s.nextAcquire = .fail →
      exec (.init km dp kf) s = .next { s with
        acquireAnswers := s.acquireAnswers.tail
        sourceCalls := .acquire .fail :: s.sourceCalls
        draws := s.draws + 1
        responses := ⟨.sourceUnavailable, none, .trunc, 0#32, 0#32, 0#64⟩ :: s.responses }) ∧
    (s.sess = .opened ∨ s.sess = .failed →
      exec (.init km dp kf) s = .next { s with
        responses := ⟨.illegalState, none, .trunc, 0#32, 0#32, 0#64⟩ :: s.responses })

/-! ## POLL -/

/-- R145, R146: POLL outside an open session responds ILLEGAL_STATE in CLOSED and SOURCE_UNAVAILABLE in FAILED, and does
nothing else: no source access, no state written. -/
def Obligations.PollOutsideAnOpenSession : Prop :=
  ∀ s : State,
    (s.sess = .closed → exec .poll s = .next { s with
      responses := ⟨.illegalState, none, .trunc, 0#32, 0#32, 0#64⟩ :: s.responses }) ∧
    (s.sess = .failed → exec .poll s = .next { s with
      responses := ⟨.sourceUnavailable, none, .trunc, 0#32, 0#32, 0#64⟩ :: s.responses })

/-- R147: a read answered FAIL makes the session FAILED and responds SOURCE_UNAVAILABLE, the handle still held: it is
RELEASE that gives it back. -/
def Obligations.PollReadFailureFailsTheSession : Prop :=
  ∀ s : State, s.sess = .opened → s.nextRead = .fail →
    ∃ t, exec .poll s = .next t ∧
      t = { s with
        sess := .failed
        readAnswers := s.readAnswers.tail
        sourceCalls := .read s.config.readLen .fail :: s.sourceCalls
        draws := s.draws + 1
        responses := ⟨.sourceUnavailable, none, .trunc, 0#32, 0#32, 0#64⟩ :: s.responses } ∧
      ∃ t', exec .release t = .next t' ∧ t'.sess = .closed ∧ t'.sourceCalls = .release :: t.sourceCalls

/-- R148 with the three cases of R82 spelled out: an empty window is EMPTY, a window without 0xAA is NO_START, and one whose
first 0xAA has fewer than 6 bytes after it is TRUNCATED. SESS stays OPEN and only the read is spent. -/
def Obligations.PollWithoutAFrameIsUnavailable : Prop :=
  ∀ (s : State) (w : Window) (why : NoFrame),
    s.sess = .opened → s.nextRead = .bytes w → w.length ≤ s.config.readLen →
    ((why = .empty ∧ w = []) ∨
      (why = .noStart ∧ w ≠ [] ∧ 0xAA#8 ∉ w) ∨
      (why = .truncated ∧ ∃ pre post : Window, w = pre ++ 0xAA#8 :: post ∧ 0xAA#8 ∉ pre ∧ post.length < 6)) →
    exec .poll s = .next { s with
      readAnswers := s.readAnswers.tail
      sourceCalls := .read s.config.readLen (.bytes w) :: s.sourceCalls
      draws := s.draws + 1
      responses := ⟨.unavailable, some why, .trunc, 0#32, 0#32, 0#64⟩ :: s.responses }

/-- R149 with the values of R102, R122, R125 and R131 as numbers that never wrap: a window whose first 0xAA is followed by
six bytes answers READING. Nothing of the block's state is written and only the read is spent. The rounding is the one
VOUT_TIE names, half to even by default (log 7). -/
def Obligations.PollWithAFrameIsAReading : Prop :=
  ∀ (s : State) (pre post : Window) (b1 b2 b3 b4 b5 e : Byte),
    s.sess = .opened → s.nextRead = .bytes (pre ++ [0xAA#8, b1, b2, b3, b4, b5, e] ++ post) → 0xAA#8 ∉ pre →
    pre.length + 7 + post.length ≤ s.config.readLen →
    ∃ r : Response,
      exec .poll s = .next { s with
        readAnswers := s.readAnswers.tail
        sourceCalls := .read s.config.readLen (.bytes (pre ++ [0xAA#8, b1, b2, b3, b4, b5, e] ++ post)) :: s.sourceCalls
        draws := s.draws + 1
        responses := r :: s.responses } ∧
      r.status = .reading ∧ r.reason = none ∧ r.dpol = s.cfg.dpol ∧
      r.voutQ.toNat = roundBy s.config.voutTie ((b1.toNat * 256 + b2.toNat) * 3125) 64 ∧
      (s.cfg.kmode = .stepped → r.kQ.toNat = lookupBand r.voutQ.toNat ktab * 10000) ∧
      (s.cfg.kmode = .fixed → r.kQ = s.cfg.kfix) ∧
      (s.cfg.dpol = .precise → r.densQ.toNat = r.kQ.toNat * r.voutQ.toNat) ∧
      (s.cfg.dpol = .trunc → r.densQ.toNat = r.kQ.toNat * r.voutQ.toNat / 100000000 * 100000000)

/-- The exposed contract in exact decimals (R66, R101, R102, R107, R130): the vout of a reading is within half of 10^-4 V of
the exact voltage, k is the strategy's coefficient for that rounded vout, and density is k * vout, or its floor when
truncated. -/
def Obligations.ReadingMeetsTheExposedContract : Prop :=
  ∀ (s t : State) (pre post : Window) (b1 b2 b3 b4 b5 e : Byte),
    s.sess = .opened → s.nextRead = .bytes (pre ++ [0xAA#8, b1, b2, b3, b4, b5, e] ++ post) → 0xAA#8 ∉ pre →
    exec .poll s = .next t →
    ∃ (r : Response) (m : Measurement), t.responses = r :: s.responses ∧ r.measurement = some m ∧
      |m.vout - vExact (b1.toNat * 256 + b2.toNat)| ≤ 1 / 20000 ∧
      (s.cfg.kmode = .fixed → m.k = (s.cfg.kfix.toNat : Rat) / 10000) ∧
      (s.cfg.kmode = .stepped → m.k = (lookupBand r.voutQ.toNat ktab : Rat) ∧ m.vout = (r.voutQ.toNat : Rat) / 10000) ∧
      (s.cfg.dpol = .precise → m.density = m.k * m.vout) ∧
      (s.cfg.dpol = .trunc → m.density = ((⌊m.k * m.vout⌋ : Int) : Rat))

/-- R42 and R178(c): POLL refuses an answer longer than it asked for, and every command refuses SESS = 3. -/
def Obligations.CommandsRefuseWhatHasNoMeaning : Prop :=
  (∀ (s : State) (w : Window), s.sess = .opened → s.nextRead = .bytes w → s.config.readLen < w.length →
    exec .poll s = .refused .answerTooLong) ∧
  (∀ (s : State) (i : Instr), s.sess = .unassigned → exec i s = .refused .sessUnassigned)

/-- R150: what a POLL responds depends on SESS, CFG and the answer its own read gets, given the block's parameters, and on
nothing else. -/
def Obligations.PollsAreIndependent : Prop :=
  ∀ s₁ s₂ : State,
    s₁.sess = s₂.sess → s₁.cfg = s₂.cfg → s₁.config = s₂.config → s₁.nextRead = s₂.nextRead →
    (∀ t₁, exec .poll s₁ = .next t₁ →
      ∃ t₂ r, exec .poll s₂ = .next t₂ ∧ t₁.responses = r :: s₁.responses ∧ t₂.responses = r :: s₂.responses ∧
        t₁.sess = t₂.sess) ∧
    (∀ q, exec .poll s₁ = .refused q → exec .poll s₂ = .refused q)

/-- R70: with the stepped strategy CFG_KFIX is written and never read. -/
def Obligations.SteppedModeIgnoresKfix : Prop :=
  ∀ (s t : State) (k : BitVec 32), s.cfg.kmode = .stepped → exec .poll s = .next t →
    exec .poll { s with cfg := { s.cfg with kfix := k } } = .next { t with cfg := { t.cfg with kfix := k } }

/-! ## RELEASE -/

/-- R151, R152: RELEASE gives the handle back once from OPEN or FAILED and closes the session, and from CLOSED it only
responds OK. What CFG holds afterwards is left open (log 4), so nothing is said of it. -/
def Obligations.ReleaseEndsTheSession : Prop :=
  ∀ s : State,
    (s.sess = .opened ∨ s.sess = .failed →
      ∃ t, exec .release s = .next t ∧ t.sess = .closed ∧ t.config = s.config ∧ t.pending = s.pending ∧
        t.acquireAnswers = s.acquireAnswers ∧ t.readAnswers = s.readAnswers ∧
        t.sourceCalls = .release :: s.sourceCalls ∧
        t.responses = ⟨.ok, none, .trunc, 0#32, 0#32, 0#64⟩ :: s.responses) ∧
    (s.sess = .closed →
      exec .release s = .next { s with responses := ⟨.ok, none, .trunc, 0#32, 0#32, 0#64⟩ :: s.responses })

/-! ## The frame search -/

/-- R82, R83, R84, R87, whole: FRAME returns the 7 bytes at the first 0xAA when at least 7 remain from it, and otherwise the
reason that applies. -/
def Obligations.FrameSearchMeetsItsRule : Prop :=
  ∀ w : Window,
    (∀ f, frameSearch w = .frame f ↔
      ∃ i : Nat, i + 7 ≤ w.length ∧ w[i]? = some 0xAA#8 ∧ (∀ j, j < i → w[j]? ≠ some 0xAA#8) ∧ f.bytes = (w.drop i).take 7) ∧
    (frameSearch w = .noFrame .empty ↔ w = []) ∧
    (frameSearch w = .noFrame .noStart ↔ w ≠ [] ∧ ∀ j : Nat, w[j]? ≠ some 0xAA#8) ∧
    (frameSearch w = .noFrame .truncated ↔
      ∃ i : Nat, w.length < i + 7 ∧ w[i]? = some 0xAA#8 ∧ ∀ j, j < i → w[j]? ≠ some 0xAA#8)

/-- R90 (P1) and (P2), and R89 (a), (b) and (c). -/
def Obligations.FramerHasTheSourcesProperties : Prop :=
  ∀ w : Window,
    (∀ j : Nat, w[j]? = some 0xAA#8 → j + 6 < w.length →
      ∃ (i : Nat) (f : Frame), i ≤ j ∧ frameSearch w = .frame f ∧ w[i]? = some 0xAA#8 ∧ (∀ k, k < i → w[k]? ≠ some 0xAA#8) ∧
        f.bytes = (w.drop i).take 7 ∧ f.bytes.length = 7) ∧
    ((∀ j : Nat, w[j]? ≠ some 0xAA#8) ∨
        (∃ i : Nat, w[i]? = some 0xAA#8 ∧ (∀ k, k < i → w[k]? ≠ some 0xAA#8) ∧ w.length - (i + 1) < 6) →
      ∃ why, frameSearch w = .noFrame why) ∧
    (w.length < 7 → ∃ why, frameSearch w = .noFrame why) ∧
    (w.length = 14 → ∀ o, o < 7 → w[o]? = some 0xAA#8 → w[o + 7]? = some 0xAA#8 → ∃ f, frameSearch w = .frame f)

/-- R86, R88: what stands before the first 0xAA and after the frame is discarded, and the six bytes after the 0xAA are taken
as they are, even if one of them is 0xAA. -/
def Obligations.FramerDiscardsWhatSurroundsTheFrame : Prop :=
  ∀ (pre post : Window) (f : Frame), 0xAA#8 ∉ pre → f.start = 0xAA#8 →
    frameSearch (pre ++ f.bytes ++ post) = .frame f

/-! ## The scaler -/

/-- R100 to R103: DECODE is the exact voltage of the big-endian 16-bit sample, rounded to 4 decimal places with ties to even,
and reads no byte but B1 and B2. -/
def Obligations.ScalerRoundsTheExactVoltage : Prop :=
  ∀ f : Frame,
    |((decodeFrame .halfEven f).toNat : Rat) - vExact (f.b1.toNat * 256 + f.b2.toNat) * 10000| ≤ 1 / 2 ∧
    (|((decodeFrame .halfEven f).toNat : Rat) - vExact (f.b1.toNat * 256 + f.b2.toNat) * 10000| = 1 / 2 →
      (decodeFrame .halfEven f).toNat % 2 = 0)

/-- R104: the range of VOUT_Q, without wrapping. -/
def Obligations.VoutStaysInItsRange : Prop :=
  ∀ raw : BitVec 16,
    (voutOfRaw .halfEven raw).toNat = rne (raw.toNat * 3125) 64 ∧
    (voutOfRaw .halfEven raw).toNat ≤ 3199951 ∧
    (raw.toNat ≤ 1023 → (voutOfRaw .halfEven raw).toNat ≤ 49951) ∧
    ((voutOfRaw .halfEven raw).toNat ≤ 50000 ↔ raw.toNat ≤ 1024)

/-- R106: VOUT_Q is strictly increasing in RAW, under either tie rule, and by at least 48 for each step, so values between
two results are no results. -/
def Obligations.VoutIsStrictlyIncreasing : Prop :=
  ∀ (t : Tie) (a b : BitVec 16), a.toNat < b.toNat →
    (voutOfRaw t a).toNat + 48 * (b.toNat - a.toNat) ≤ (voutOfRaw t b).toNat

/-- R105: the ties are RAW ≡ 32 (mod 64), and the two tie rules differ exactly at RAW ≡ 32 (mod 128). -/
def Obligations.TieRulesDifferExactlyAtRaw32Mod128 : Prop :=
  ∀ raw : BitVec 16,
    (raw.toNat * 3125 % 64 = 32 ↔ raw.toNat % 64 = 32) ∧
    (voutOfRaw .halfEven raw ≠ voutOfRaw .halfUp raw ↔ raw.toNat % 128 = 32)

/-! ## The calibration -/

/-- R30: the contents of the ROM, both columns strictly increasing, the bounds in 11 bits and the coefficients in 12. -/
def Obligations.RomHoldsTheTable : Prop :=
  ktab.map (fun b => (b.boundQ, b.kint)) =
    [(460, 200), (490, 400), (520, 600), (550, 750), (590, 900), (650, 1000), (710, 1250), (760, 1400), (810, 1700),
     (860, 1800), (910, 1900), (1010, 2000), (1110, 2200)] ∧
  kfallback = 3000 ∧
  ktab.Pairwise (fun a b => a.boundQ < b.boundQ ∧ a.kint < b.kint) ∧
  (∀ b ∈ ktab, b.boundQ < 2 ^ 11 ∧ b.kint < 2 ^ 12)

/-- R124: the bands of the stepped coefficient by VOUT_Q, each bound excluded from its band, and by the sample, with the
VOUT_Q of the samples below the fallback. No sample gives 600. -/
def Obligations.SteppedBandsAreThoseOfTheTable : Prop :=
  (∀ v : BitVec 22,
    (v.toNat ≤ 459 → (coeffStepped v).toNat = 200 * 10000) ∧
    (460 ≤ v.toNat → v.toNat ≤ 489 → (coeffStepped v).toNat = 400 * 10000) ∧
    (490 ≤ v.toNat → v.toNat ≤ 519 → (coeffStepped v).toNat = 600 * 10000) ∧
    (520 ≤ v.toNat → v.toNat ≤ 549 → (coeffStepped v).toNat = 750 * 10000) ∧
    (550 ≤ v.toNat → v.toNat ≤ 589 → (coeffStepped v).toNat = 900 * 10000) ∧
    (590 ≤ v.toNat → v.toNat ≤ 649 → (coeffStepped v).toNat = 1000 * 10000) ∧
    (650 ≤ v.toNat → v.toNat ≤ 709 → (coeffStepped v).toNat = 1250 * 10000) ∧
    (710 ≤ v.toNat → v.toNat ≤ 759 → (coeffStepped v).toNat = 1400 * 10000) ∧
    (760 ≤ v.toNat → v.toNat ≤ 809 → (coeffStepped v).toNat = 1700 * 10000) ∧
    (810 ≤ v.toNat → v.toNat ≤ 859 → (coeffStepped v).toNat = 1800 * 10000) ∧
    (860 ≤ v.toNat → v.toNat ≤ 909 → (coeffStepped v).toNat = 1900 * 10000) ∧
    (910 ≤ v.toNat → v.toNat ≤ 1009 → (coeffStepped v).toNat = 2000 * 10000) ∧
    (1010 ≤ v.toNat → v.toNat ≤ 1109 → (coeffStepped v).toNat = 2200 * 10000) ∧
    (1110 ≤ v.toNat → (coeffStepped v).toNat = 3000 * 10000)) ∧
  (∀ raw : BitVec 16,
    (raw.toNat ≤ 9 → (coeffStepped (voutOfRaw .halfEven raw)).toNat = 200 * 10000) ∧
    (raw.toNat = 10 → (coeffStepped (voutOfRaw .halfEven raw)).toNat = 400 * 10000) ∧
    (raw.toNat = 11 → (coeffStepped (voutOfRaw .halfEven raw)).toNat = 750 * 10000) ∧
    (raw.toNat = 12 → (coeffStepped (voutOfRaw .halfEven raw)).toNat = 900 * 10000) ∧
    (raw.toNat = 13 → (coeffStepped (voutOfRaw .halfEven raw)).toNat = 1000 * 10000) ∧
    (raw.toNat = 14 → (coeffStepped (voutOfRaw .halfEven raw)).toNat = 1250 * 10000) ∧
    (raw.toNat = 15 → (coeffStepped (voutOfRaw .halfEven raw)).toNat = 1400 * 10000) ∧
    (raw.toNat = 16 → (coeffStepped (voutOfRaw .halfEven raw)).toNat = 1700 * 10000) ∧
    (raw.toNat = 17 → (coeffStepped (voutOfRaw .halfEven raw)).toNat = 1800 * 10000) ∧
    (raw.toNat = 18 → (coeffStepped (voutOfRaw .halfEven raw)).toNat = 1900 * 10000) ∧
    (raw.toNat = 19 ∨ raw.toNat = 20 → (coeffStepped (voutOfRaw .halfEven raw)).toNat = 2000 * 10000) ∧
    (raw.toNat = 21 ∨ raw.toNat = 22 → (coeffStepped (voutOfRaw .halfEven raw)).toNat = 2200 * 10000) ∧
    (23 ≤ raw.toNat → (coeffStepped (voutOfRaw .halfEven raw)).toNat = 3000 * 10000) ∧
    (coeffStepped (voutOfRaw .halfEven raw)).toNat ≠ 600 * 10000) ∧
  (List.range 23).map (fun n => (voutOfRaw .halfEven (BitVec.ofNat 16 n)).toNat) =
    [0, 49, 98, 146, 195, 244, 293, 342, 391, 439, 488, 537, 586, 635, 684, 732, 781, 830, 879, 928, 977, 1025, 1074]

/-- R121, R125: the strategy INIT chose gives the coefficient, and the fixed one never depends on Vout. -/
def Obligations.CoefficientFollowsTheStrategy : Prop :=
  ∀ (c : Cfg) (v v' : BitVec 22),
    (c.kmode = .stepped → coeff c v = coeffStepped v) ∧
    (c.kmode = .fixed → coeff c v = c.kfix ∧ coeff c v = coeff c v')

/-- R126, R127: the product is exact and never wraps. -/
def Obligations.ProductNeverWraps : Prop :=
  ∀ (k : BitVec 32) (raw : BitVec 16),
    (product k (voutOfRaw .halfEven raw)).toNat = k.toNat * (voutOfRaw .halfEven raw).toNat ∧
    (product k (voutOfRaw .halfEven raw)).toNat ≤ 13743684890602545 ∧
    13743684890602545 < 2 ^ 54 ∧
    (product (coeffStepped (voutOfRaw .halfEven raw)) (voutOfRaw .halfEven raw)).toNat ≤ 95998530000000 ∧
    95998530000000 < 2 ^ 47

/-- R128, R129, R131: PRECISE keeps the product, and TRUNC is its floor to a whole µg/m³, on every coefficient and every
22-bit Vout (D8). -/
def Obligations.DensityPoliciesAreExact : Prop :=
  ∀ (k : BitVec 32) (v : BitVec 22),
    (density .precise k v).toNat = k.toNat * v.toNat ∧
    (density .trunc k v).toNat = k.toNat * v.toNat / 100000000 * 100000000

/-! ## The whole machine -/

/-- The invariant holds right after reset. -/
def Obligations.ResetMeetsTheInvariant : Prop := State.reset.Inv

/-- R35(a) and (c), R66: every step from a state that meets the invariant gives one that meets it, whatever the event. -/
def Obligations.EveryStepKeepsTheInvariant : Prop :=
  ∀ s t : State, s.Inv → step s = .next t → t.Inv

/-- R154, the table of transitions with its source calls, from every state: a command that is answered takes one of its
rows, and gets exactly one response (R66). -/
def Obligations.EveryCommandTakesARowOfTheTransitionTable : Prop :=
  ∀ (s t : State) (c : Word) (es : List Event), s.pending = .command c :: es → step s = .next t →
    ∃ r : Response, t.responses = r :: s.responses ∧ t.pending = es ∧ t.config = s.config ∧
      ((IllegalNumber c.toNat ∧ t.sess = s.sess ∧ t.cfg = s.cfg ∧ t.sourceCalls = s.sourceCalls ∧ r.status = .illegalCmd) ∨
      (∃ km dp kf, decode c = .instr (.init km dp kf) ∧
        ((s.sess = .closed ∧ t.sess = .opened ∧ t.cfg = ⟨km, kf, dp⟩ ∧ t.sourceCalls = .acquire .ok :: s.sourceCalls ∧
            r.status = .ok) ∨
         (s.sess = .closed ∧ t.sess = .closed ∧ t.cfg = s.cfg ∧ t.sourceCalls = .acquire .fail :: s.sourceCalls ∧
            r.status = .sourceUnavailable) ∨
         ((s.sess = .opened ∨ s.sess = .failed) ∧ t.sess = s.sess ∧ t.cfg = s.cfg ∧ t.sourceCalls = s.sourceCalls ∧
            r.status = .illegalState))) ∨
      (decode c = .instr .poll ∧ t.cfg = s.cfg ∧
        ((s.sess = .closed ∧ t.sess = .closed ∧ t.sourceCalls = s.sourceCalls ∧ r.status = .illegalState) ∨
         (s.sess = .opened ∧ t.sess = .failed ∧ t.sourceCalls = .read s.config.readLen .fail :: s.sourceCalls ∧
            r.status = .sourceUnavailable) ∨
         (∃ w why, s.sess = .opened ∧ t.sess = .opened ∧ frameSearch w = .noFrame why ∧ w.length ≤ s.config.readLen ∧
            t.sourceCalls = .read s.config.readLen (.bytes w) :: s.sourceCalls ∧ r.status = .unavailable ∧
            r.reason = some why) ∨
         (∃ w f, s.sess = .opened ∧ t.sess = .opened ∧ frameSearch w = .frame f ∧ w.length ≤ s.config.readLen ∧
            t.sourceCalls = .read s.config.readLen (.bytes w) :: s.sourceCalls ∧ r.status = .reading) ∨
         (s.sess = .failed ∧ t.sess = .failed ∧ t.sourceCalls = s.sourceCalls ∧ r.status = .sourceUnavailable))) ∨
      (decode c = .instr .release ∧ t.sess = .closed ∧ r.status = .ok ∧
        (((s.sess = .opened ∨ s.sess = .failed) ∧ t.sourceCalls = .release :: s.sourceCalls) ∨
         (s.sess = .closed ∧ t.sourceCalls = s.sourceCalls ∧ t.cfg = s.cfg))))

/-- R177, the order of checks, the first that applies deciding the response: an illegal word, a session state that does not
allow the command, POLL in FAILED without a read, an answer FAIL, a read too long (refused), no frame with its reason, and
otherwise READING or OK. -/
def Obligations.ChecksComeInTheirOrder : Prop :=
  ∀ (s : State) (c : Word) (es : List Event), s.pending = .command c :: es → s.sess ≠ .unassigned →
    let init := ∃ km dp kf, decode c = .instr (.init km dp kf)
    let poll := decode c = .instr .poll
    let answers := fun st why => ∃ t r, step s = .next t ∧ t.responses = r :: s.responses ∧ r.status = st ∧ r.reason = why
    let notAllowed := (init ∧ s.sess ≠ .closed) ∨ (poll ∧ s.sess = .closed)
    let sourceFails := (init ∧ s.nextAcquire = .fail) ∨ (poll ∧ s.nextRead = .fail)
    (IllegalNumber c.toNat → answers .illegalCmd none) ∧
    (¬ IllegalNumber c.toNat → notAllowed → answers .illegalState none) ∧
    (¬ IllegalNumber c.toNat → ¬ notAllowed → poll → s.sess = .failed →
      answers .sourceUnavailable none ∧ ∀ t, step s = .next t → t.sourceCalls = s.sourceCalls) ∧
    (¬ IllegalNumber c.toNat → ¬ notAllowed → ¬ (poll ∧ s.sess = .failed) → sourceFails → answers .sourceUnavailable none) ∧
    (¬ IllegalNumber c.toNat → ¬ notAllowed → ¬ (poll ∧ s.sess = .failed) → ¬ sourceFails →
      (∀ w, poll → s.nextRead = .bytes w → s.config.readLen < w.length → step s = .refused .answerTooLong) ∧
      (∀ w why, poll → s.nextRead = .bytes w → w.length ≤ s.config.readLen → frameSearch w = .noFrame why →
        answers .unavailable (some why)) ∧
      (∀ w f, poll → s.nextRead = .bytes w → w.length ≤ s.config.readLen → frameSearch w = .frame f → answers .reading none) ∧
      (¬ poll → answers .ok none))

/-- R171, R180: a fault records STATUS alone, and changes nothing of the block but, for a POLL whose read fails, OPEN to
FAILED. -/
def Obligations.FaultsArePrecise : Prop :=
  ∀ (s t : State) (r : Response) (c : Word) (es : List Event),
    s.pending = .command c :: es → step s = .next t → t.responses = r :: s.responses →
    r.status = .illegalCmd ∨ r.status = .illegalState ∨ r.status = .sourceUnavailable →
    r = ⟨r.status, none, .trunc, 0#32, 0#32, 0#64⟩ ∧ t.cfg = s.cfg ∧ t.config = s.config ∧ t.pending = es ∧
      (t.sess = s.sess ∨
        (s.sess = .opened ∧ t.sess = .failed ∧ decode c = .instr .poll ∧ s.nextRead = .fail ∧ r.status = .sourceUnavailable)) ∧
      (r.status ≠ .sourceUnavailable → t.sourceCalls = s.sourceCalls)

/-- R178, R189: a step never faults, and it is refused in R178's cases (a) to (c), case (d) never happening. The model's own:
that R189 leaves no fault where R29 speaks of one (log 12), that case (b) is met as an event (log 13), and, of case (c), that an
illegal word is refused with SESS = 3 while an idle step and a reset event are not (log 10). -/
def Obligations.StepsAreRefusedOnlyAsListed : Prop :=
  ∀ s : State,
    (∀ f, step s ≠ .fault f) ∧
    (∀ q, step s = .refused q ↔
      ∃ e es, s.pending = e :: es ∧
        ((q = .concurrentUse ∧ ((∃ c c', e = .overlapping c c') ∨ ∃ c, e = .sharedHandle c)) ∨
         (∃ c, e = .command c ∧
           ((q = .sessUnassigned ∧ s.sess = .unassigned) ∨
            (q = .answerTooLong ∧ s.sess = .opened ∧ decode c = .instr .poll ∧
              ∃ w, s.nextRead = .bytes w ∧ s.config.readLen < w.length)))))

/-- R35(b), R196: as long as the session stays, CFG stays, whatever the event. -/
def Obligations.CfgIsFixedWithinASession : Prop :=
  ∀ s t : State, step s = .next t → s.sess ≠ .closed → t.sess ≠ .closed → t.cfg = s.cfg

/-- R146, R197: FAILED is left only by RELEASE or a reset, and every POLL in it responds SOURCE_UNAVAILABLE without a source
call. -/
def Obligations.FailedIsStickyUntilRelease : Prop :=
  ∀ s t : State, s.sess = .failed → step s = .next t →
    (t.sess = .failed ∨
      (t.sess = .closed ∧ ∃ e es, s.pending = e :: es ∧
        (e = .command 3#64 ∨ e = .reset ∨ ∃ c, e = .resetDuring c))) ∧
    (∀ es, s.pending = .command 2#64 :: es →
      t.sess = .failed ∧ t.sourceCalls = s.sourceCalls ∧
      t.responses = ⟨.sourceUnavailable, none, .trunc, 0#32, 0#32, 0#64⟩ :: s.responses)

/-- R31, R33, R34: no step reads back what the block has answered or called before. The step of a state whose records are
replaced adds the same to them and does all else alike. -/
def Obligations.RecordsAreNeverReadBack : Prop :=
  ∀ (s t : State) (rs : List Response) (cs : List SourceCall), step s = .next t →
    ∃ rs' cs', t.responses = rs' ++ s.responses ∧ t.sourceCalls = cs' ++ s.sourceCalls ∧
      step { s with responses := rs, sourceCalls := cs } =
        .next { t with responses := rs' ++ rs, sourceCalls := cs' ++ cs }

/-- R29: while SESS = CLOSED the accessor refuses to read CFG, and no step shows what it holds: with another CFG the step
answers and calls the same, and leaves the same state wherever a session exists after it. -/
def Obligations.UnspecifiedCfgIsNeverSeen : Prop :=
  ∀ (s t : State) (c : Cfg), s.sess = .closed → step s = .next t →
    s.readCfg = .error .cfgUnspecified ∧
    ∃ t', step { s with cfg := c } = .next t' ∧ t'.responses = t.responses ∧ t'.sourceCalls = t.sourceCalls ∧
      t'.sess = t.sess ∧ { t' with cfg := t.cfg } = t ∧ (t.sess ≠ .closed → t' = t)

/-- R190, R191: a reset event closes the session, giving a held handle back exactly once, and answers nothing, also when it
abandons a command, whose read may have consumed one answer of the byte source. The model's own choices: the events (log 1),
that an abandoned INIT makes no acquire and an abandoned RELEASE no release of its own (log 14, unsafe), and that a reset from
SESS = 3 calls SrcRelease (log 10). -/
def Obligations.ResetReleasesAHeldHandle : Prop :=
  ∀ (s : State) (es : List Event),
    (s.pending = .reset :: es →
      ∃ t, step s = .next t ∧ t.sess = .closed ∧ t.responses = s.responses ∧ t.pending = es ∧ t.config = s.config ∧
        t.acquireAnswers = s.acquireAnswers ∧ t.readAnswers = s.readAnswers ∧
        t.sourceCalls = if s.sess = .closed then s.sourceCalls else .release :: s.sourceCalls) ∧
    (∀ c, s.pending = .resetDuring c :: es →
      ∃ t cs, step s = .next t ∧ t.sess = .closed ∧ t.responses = s.responses ∧ t.pending = es ∧ t.config = s.config ∧
        t.acquireAnswers = s.acquireAnswers ∧
        ((cs = s.sourceCalls ∧ t.readAnswers = s.readAnswers) ∨
         (s.sess = .opened ∧ c = 2#64 ∧ cs = .read s.config.readLen s.nextRead :: s.sourceCalls ∧
           t.readAnswers = s.readAnswers.tail)) ∧
        t.sourceCalls = if s.sess = .closed then cs else .release :: cs)

/-- R194 with R201 and R175: a session of INIT, any number of POLLs and RELEASE runs to its end from CLOSED, whatever bytes
the byte source delivers within its contract: nothing is refused, every POLL is answered READING, UNAVAILABLE or
SOURCE_UNAVAILABLE, and the handle is given back. It rests on log 8 (unsafe), R201's own assumption: every source call is
answered within its step, so a byte source that hangs is missed. -/
def Obligations.AWellFormedSessionRunsToItsEnd : Prop :=
  ∀ (n : Nat) (s : State) (km : KMode) (dp : DPol) (kf : BitVec 32),
    s.sess = .closed → s.nextAcquire = .ok → s.SourceInContract →
    s.pending = .command (encode (.init km dp kf)) :: (List.replicate n (.command (encode .poll)) ++ [.command (encode .release)]) →
    ∃ (t : State) (rs : List Response), Sys2Proof.core.run (n + 2) s = .next t ∧ t.Final ∧ t.sess = .closed ∧
      handleCount t.sourceCalls = handleCount s.sourceCalls ∧ rs.length = n ∧
      t.responses = okResponse :: (rs ++ okResponse :: s.responses) ∧
      ∀ r ∈ rs, r.status = .reading ∨ r.status = .unavailable ∨ r.status = .sourceUnavailable

/-! ## Codes and the assembler -/

/-- R67, R68, R23: the codes of STATUS, REASON and SESS, all different. -/
def Obligations.CodesAreThoseOfTheTables : Prop :=
  [Status.ok, .reading, .unavailable, .sourceUnavailable, .illegalCmd, .illegalState].map Status.code =
    [0#4, 1#4, 2#4, 3#4, 4#4, 5#4] ∧
  (∀ st : Status, st.code.toNat < 6) ∧
  [none, some NoFrame.empty, some .noStart, some .truncated].map reasonCode = [0#2, 1#2, 2#2, 3#2] ∧
  [Sess.closed, .opened, .failed].map Sess.code = [0#2, 1#2, 2#2]

/-- R74: the pseudo-instructions and their words, with `k × 10^4` in bits 47:16. -/
def Obligations.PseudoInstructionsAssembleToTheirWords : Prop :=
  (assemble .initLegacy = some (.init .stepped .trunc 0#32) ∧ encode (.init .stepped .trunc 0#32) = 1#64) ∧
  ∀ d : Decimal, d.wf = true →
    ∃ i, assemble (.initConfigured d) = some i ∧ i = .init .fixed .precise d.kfix ∧
      ((encode i).toNat : Rat) = 0x301 + 2 ^ 16 * (10 ^ 4 * decimalValue d)

/-- R73: an INIT line assembles alike with its keywords in any order, its `k` becomes exactly `k × 10^4`, and a `k` that is
negative, has more than 4 fractional digits or is above 429496.7295 is refused, never rounded. `negative` is the minus sign:
that `-0` is refused too is the model's choice (log 16), R73 being silent on it. -/
def Obligations.AssemblerIsExactAndOrderFree : Prop :=
  (∀ ks ks' : List InitKeyword, ks.Perm ks' → assemble (.init ks) = assemble (.init ks')) ∧
  (∀ (m : KMode) (p : DPol) (d : Decimal), d.negative = false → d.frac.length ≤ 4 →
    decimalValue d ≤ 4294967295 / 10000 →
    ∃ kf : BitVec 32, assemble (.init [.kmode m, .dpol p, .k d]) = some (.init m p kf) ∧
      (kf.toNat : Rat) = decimalValue d * 10 ^ 4) ∧
  (∀ (m : KMode) (p : DPol), assemble (.init [.kmode m, .dpol p]) = some (.init m p 0#32)) ∧
  (∀ (m : KMode) (p : DPol) (d : Decimal),
    d.negative = true ∨ 4 < d.frac.length ∨ 4294967295 / 10000 < decimalValue d →
    assemble (.init [.kmode m, .dpol p, .k d]) = none)
end

