-- ==== Sys2Proof/Laws/Decode.lean ====
section
/-! SUPPORT. Fields of a word and encoded commands as numbers, and the one case split of the decoder. -/

namespace Sys2Proof

@[simp] theorem KMode.ofBit_bit (m : KMode) : KMode.ofBit m.bit = m := by cases m <;> rfl
@[simp] theorem KMode.bit_ofBit (b : BitVec 1) : (KMode.ofBit b).bit = b := by revert b; decide
@[simp] theorem DPol.ofBit_bit (p : DPol) : DPol.ofBit p.bit = p := by cases p <;> rfl
@[simp] theorem DPol.bit_ofBit (b : BitVec 1) : (DPol.ofBit b).bit = b := by revert b; decide

theorem field_toNat (c : Word) (lo len : Nat) : (field c lo len).toNat = c.toNat / 2 ^ lo % 2 ^ len := by
  simp [field, BitVec.extractLsb'_toNat, Nat.shiftRight_eq_div_pow]

theorem append_toNat {m n : Nat} (x : BitVec m) (y : BitVec n) : (x ++ y).toNat = x.toNat * 2 ^ n + y.toNat := by
  rw [BitVec.toNat_append, ← Nat.shiftLeft_add_eq_or_of_lt y.isLt, Nat.shiftLeft_eq]

/-- R60's layout of INIT as a sum: nothing is lost in the 64 bits. -/
theorem encode_init_toNat (km : KMode) (dp : DPol) (kf : BitVec 32) :
    (encode (.init km dp kf)).toNat = 1 + 2 ^ 8 * km.bit.toNat + 2 ^ 9 * dp.bit.toNat + 2 ^ 16 * kf.toNat := by
  have := kf.isLt
  have := km.bit.isLt
  have := dp.bit.isLt
  simp only [encode, BitVec.toNat_setWidth, append_toNat, BitVec.toNat_ofNat]
  omega

namespace Machine

theorem opc_eq_iff (c : Word) {k : Nat} (hk : k < 256) : opc c = BitVec.ofNat 8 k ↔ c.toNat % 256 = k := by
  rw [← BitVec.toNat_inj, opc, field_toNat, BitVec.toNat_ofNat]; omega

theorem res0_eq_zero_iff (c : Word) : res0 c = 0#6 ↔ c.toNat / 2 ^ 10 % 2 ^ 6 = 0 := by
  rw [← BitVec.toNat_inj, res0, field_toNat, BitVec.toNat_ofNat]

theorem res1_eq_zero_iff (c : Word) : res1 c = 0#16 ↔ c.toNat / 2 ^ 48 % 2 ^ 16 = 0 := by
  rw [← BitVec.toNat_inj, res1, field_toNat, BitVec.toNat_ofNat]

theorem aboveOpc_eq_zero_iff (c : Word) : aboveOpc c = 0#56 ↔ c.toNat / 2 ^ 8 % 2 ^ 56 = 0 := by
  rw [← BitVec.toNat_inj, aboveOpc, field_toNat, BitVec.toNat_ofNat]

/-- Bit `i` of the mask of INIT's row: set outside KMODE, DPOL and KFIX (R62). -/
theorem initMask_bit : ∀ i, i < 64 →
    (0xFFFF00000000FCFF#64).getLsbD i = decide (i < 8 ∨ (10 ≤ i ∧ i < 16) ∨ 48 ≤ i) := by decide

theorem field_bit (c : Word) (lo len j : Nat) (h : j < len) : (field c lo len).getLsbD j = c.getLsbD (lo + j) := by
  simp [field, h]

/-- INIT's row of the opcode table, mask and match, as three fields of the word (R62). -/
theorem initRow_iff (c : Word) : c &&& 0xFFFF00000000FCFF#64 = 0x0000000000000001#64 ↔
    c.toNat % 256 = 1 ∧ c.toNat / 2 ^ 10 % 2 ^ 6 = 0 ∧ c.toNat / 2 ^ 48 % 2 ^ 16 = 0 := by
  rw [← opc_eq_iff c (k := 1) (by omega), ← res0_eq_zero_iff, ← res1_eq_zero_iff]
  have bit : ∀ i, i < 64 → ((c &&& 0xFFFF00000000FCFF#64).getLsbD i = (1#64).getLsbD i ↔
      (c.getLsbD i && decide (i < 8 ∨ (10 ≤ i ∧ i < 16) ∨ 48 ≤ i)) = decide (i = 0)) := by
    intro i hi
    rw [BitVec.getLsbD_and, initMask_bit i hi]
    have : (1#64).getLsbD i = decide (i = 0) := by revert i; decide
    rw [this]
  have one : ∀ j, j < 8 → (BitVec.ofNat 8 1).getLsbD j = decide (j = 0) := by decide
  constructor
  · intro h
    have hb : ∀ i, i < 64 → (c.getLsbD i && decide (i < 8 ∨ (10 ≤ i ∧ i < 16) ∨ 48 ≤ i)) = decide (i = 0) :=
      fun i hi => (bit i hi).1 (by rw [h])
    refine ⟨?_, ?_, ?_⟩ <;> apply BitVec.eq_of_getLsbD_eq <;> intro j hj
    · have := hb j (by omega)
      rw [opc, field_bit c 0 8 j hj, one j hj]
      simpa [hj] using this
    · have := hb (10 + j) (by omega)
      rw [res0, field_bit c 10 6 j hj]
      simpa [show 10 + j < 16 by omega] using this
    · have := hb (48 + j) (by omega)
      rw [res1, field_bit c 48 16 j hj]
      simpa using this
  · rintro ⟨h1, h2, h3⟩
    apply BitVec.eq_of_getLsbD_eq
    intro i hi
    rw [bit i hi]
    by_cases low : i < 8
    · have := field_bit c 0 8 i low
      rw [← opc, h1, one i low] at this
      simp [low, show c.getLsbD i = decide (i = 0) by simpa using this.symm]
    · have hne : i ≠ 0 := by omega
      by_cases mid : 10 ≤ i ∧ i < 16
      · have := field_bit c 10 6 (i - 10) (by omega)
        rw [← res0, h2, show 10 + (i - 10) = i by omega] at this
        simp [hne, show c.getLsbD i = false by simpa using this.symm]
      · by_cases top : 48 ≤ i
        · have := field_bit c 48 16 (i - 48) (by omega)
          rw [← res1, h3, show 48 + (i - 48) = i by omega] at this
          simp [hne, show c.getLsbD i = false by simpa using this.symm]
        · simp [hne, low, mid, top]

/-- What the decoder answers, with the word as a number in each case. -/
theorem decode_cases (c : Word) :
    (c.toNat % 256 = 1 ∧ c.toNat / 2 ^ 10 % 2 ^ 6 = 0 ∧ c.toNat / 2 ^ 48 % 2 ^ 16 = 0 ∧
      decode c = .instr (.init (kmodeField c) (dpolField c) (kfixField c))) ∨
    (c = 2#64 ∧ decode c = .instr .poll) ∨
    (c = 3#64 ∧ decode c = .instr .release) ∨
    (IllegalNumber c.toNat ∧ ∃ why, decode c = .illegal why) := by
  have h1 := opc_eq_iff c (k := 1) (by omega)
  have h2 := opc_eq_iff c (k := 2) (by omega)
  have h3 := opc_eq_iff c (k := 3) (by omega)
  have hc := c.isLt
  unfold decode IllegalNumber
  simp only [h1, h2, h3, res0_eq_zero_iff, res1_eq_zero_iff, aboveOpc_eq_zero_iff, ← BitVec.toNat_inj (x := c),
    BitVec.toNat_ofNat]
  split_ifs with g1 g2 g3 g4 g5 g6
  · exact .inl ⟨g1, g2.1, g2.2, rfl⟩
  · exact .inr (.inr (.inr ⟨.inr (.inl ⟨g1, by omega⟩), _, rfl⟩))
  · exact .inr (.inl ⟨by omega, rfl⟩)
  · exact .inr (.inr (.inr ⟨.inr (.inr ⟨.inl g3, g4⟩), _, rfl⟩))
  · exact .inr (.inr (.inl ⟨by omega, rfl⟩))
  · exact .inr (.inr (.inr ⟨.inr (.inr ⟨.inr g5, g6⟩), _, rfl⟩))
  · exact .inr (.inr (.inr ⟨.inl ⟨g1, g3, g5⟩, _, rfl⟩))

end Machine

end Sys2Proof
end

