-- ==== Sys2Proof/Laws/PerInstr.lean ====
section
/-! SUPPORT. Family OpcodeRow: the encoding of each command lies in its row of spec/opcode_table.json. -/

namespace Sys2Proof.Laws.OpcodeRow

/-- The mask of the command's row (R62, R63, R64). -/
def rowMask : Instr → Word
  | .init _ _ _ => 0xFFFF00000000FCFF#64
  | .poll => 0xFFFFFFFFFFFFFFFF#64
  | .release => 0xFFFFFFFFFFFFFFFF#64

/-- The match value of the command's row (R62, R63, R64). -/
def rowMatch : Instr → Word
  | .init _ _ _ => 0x0000000000000001#64
  | .poll => 0x0000000000000002#64
  | .release => 0x0000000000000003#64

/-- The encoding, under the row's mask, is the row's match value. -/
def Statement (i : Instr) : Prop := encode i &&& rowMask i = rowMatch i

/-- The row's mask leaves of an encoded INIT exactly its OPC: what R60 reserves is 0. -/
theorem init (kmode : KMode) (dpol : DPol) (kfix : BitVec 32) : Statement (.init kmode dpol kfix) := by
  have e := encode_init_toNat kmode dpol kfix
  have := kfix.isLt
  have := kmode.bit.isLt
  have := dpol.bit.isLt
  exact (Machine.initRow_iff _).2 (by omega)

theorem poll : Statement .poll := by unfold Statement; decide

theorem release : Statement .release := by unfold Statement; decide

end Sys2Proof.Laws.OpcodeRow
end

