-- ==== Sys2Proof/Laws/State.lean ====
section
/-! SUPPORT. One lemma per field of State per update. -/

namespace Sys2Proof.Machine

variable (s : State)

/-! `respond` -/
@[simp] theorem respond_sess (r : Response) : (s.respond r).sess = s.sess := rfl
@[simp] theorem respond_cfg (r : Response) : (s.respond r).cfg = s.cfg := rfl
@[simp] theorem respond_config (r : Response) : (s.respond r).config = s.config := rfl
@[simp] theorem respond_pending (r : Response) : (s.respond r).pending = s.pending := rfl
@[simp] theorem respond_acquireAnswers (r : Response) : (s.respond r).acquireAnswers = s.acquireAnswers := rfl
@[simp] theorem respond_readAnswers (r : Response) : (s.respond r).readAnswers = s.readAnswers := rfl
@[simp] theorem respond_responses (r : Response) : (s.respond r).responses = r :: s.responses := rfl
@[simp] theorem respond_sourceCalls (r : Response) : (s.respond r).sourceCalls = s.sourceCalls := rfl
@[simp] theorem respond_draws (r : Response) : (s.respond r).draws = s.draws := rfl

/-! `raise` -/
@[simp] theorem raise_sess (st : Status) : (s.raise st).sess = s.sess := rfl
@[simp] theorem raise_cfg (st : Status) : (s.raise st).cfg = s.cfg := rfl
@[simp] theorem raise_config (st : Status) : (s.raise st).config = s.config := rfl
@[simp] theorem raise_pending (st : Status) : (s.raise st).pending = s.pending := rfl
@[simp] theorem raise_acquireAnswers (st : Status) : (s.raise st).acquireAnswers = s.acquireAnswers := rfl
@[simp] theorem raise_readAnswers (st : Status) : (s.raise st).readAnswers = s.readAnswers := rfl
@[simp] theorem raise_responses (st : Status) : (s.raise st).responses = raiseResponse st :: s.responses := rfl
@[simp] theorem raise_sourceCalls (st : Status) : (s.raise st).sourceCalls = s.sourceCalls := rfl
@[simp] theorem raise_draws (st : Status) : (s.raise st).draws = s.draws := rfl

/-! `setSess` -/
@[simp] theorem setSess_sess (x : Sess) : (s.setSess x).sess = x := rfl
@[simp] theorem setSess_cfg (x : Sess) : (s.setSess x).cfg = s.cfg := rfl
@[simp] theorem setSess_config (x : Sess) : (s.setSess x).config = s.config := rfl
@[simp] theorem setSess_pending (x : Sess) : (s.setSess x).pending = s.pending := rfl
@[simp] theorem setSess_acquireAnswers (x : Sess) : (s.setSess x).acquireAnswers = s.acquireAnswers := rfl
@[simp] theorem setSess_readAnswers (x : Sess) : (s.setSess x).readAnswers = s.readAnswers := rfl
@[simp] theorem setSess_responses (x : Sess) : (s.setSess x).responses = s.responses := rfl
@[simp] theorem setSess_sourceCalls (x : Sess) : (s.setSess x).sourceCalls = s.sourceCalls := rfl
@[simp] theorem setSess_draws (x : Sess) : (s.setSess x).draws = s.draws := rfl

/-! `setCfg` -/
@[simp] theorem setCfg_sess (c : Cfg) : (s.setCfg c).sess = s.sess := rfl
@[simp] theorem setCfg_cfg (c : Cfg) : (s.setCfg c).cfg = c := rfl
@[simp] theorem setCfg_config (c : Cfg) : (s.setCfg c).config = s.config := rfl
@[simp] theorem setCfg_pending (c : Cfg) : (s.setCfg c).pending = s.pending := rfl
@[simp] theorem setCfg_acquireAnswers (c : Cfg) : (s.setCfg c).acquireAnswers = s.acquireAnswers := rfl
@[simp] theorem setCfg_readAnswers (c : Cfg) : (s.setCfg c).readAnswers = s.readAnswers := rfl
@[simp] theorem setCfg_responses (c : Cfg) : (s.setCfg c).responses = s.responses := rfl
@[simp] theorem setCfg_sourceCalls (c : Cfg) : (s.setCfg c).sourceCalls = s.sourceCalls := rfl
@[simp] theorem setCfg_draws (c : Cfg) : (s.setCfg c).draws = s.draws := rfl

/-! `forgetCfg` -/
@[simp] theorem forgetCfg_sess : s.forgetCfg.sess = s.sess := rfl
@[simp] theorem forgetCfg_config : s.forgetCfg.config = s.config := rfl
@[simp] theorem forgetCfg_pending : s.forgetCfg.pending = s.pending := rfl
@[simp] theorem forgetCfg_acquireAnswers : s.forgetCfg.acquireAnswers = s.acquireAnswers := rfl
@[simp] theorem forgetCfg_readAnswers : s.forgetCfg.readAnswers = s.readAnswers := rfl
@[simp] theorem forgetCfg_responses : s.forgetCfg.responses = s.responses := rfl
@[simp] theorem forgetCfg_sourceCalls : s.forgetCfg.sourceCalls = s.sourceCalls := rfl
@[simp] theorem forgetCfg_draws : s.forgetCfg.draws = s.draws + 1 := rfl

/-! `acquireCalled` -/
@[simp] theorem acquireCalled_sess : s.acquireCalled.sess = s.sess := rfl
@[simp] theorem acquireCalled_cfg : s.acquireCalled.cfg = s.cfg := rfl
@[simp] theorem acquireCalled_config : s.acquireCalled.config = s.config := rfl
@[simp] theorem acquireCalled_pending : s.acquireCalled.pending = s.pending := rfl
@[simp] theorem acquireCalled_acquireAnswers : s.acquireCalled.acquireAnswers = s.acquireAnswers.tail := rfl
@[simp] theorem acquireCalled_readAnswers : s.acquireCalled.readAnswers = s.readAnswers := rfl
@[simp] theorem acquireCalled_responses : s.acquireCalled.responses = s.responses := rfl
@[simp] theorem acquireCalled_sourceCalls : s.acquireCalled.sourceCalls = .acquire s.nextAcquire :: s.sourceCalls := rfl
@[simp] theorem acquireCalled_draws : s.acquireCalled.draws = s.draws + 1 := rfl

/-! `readCalled` -/
@[simp] theorem readCalled_sess : s.readCalled.sess = s.sess := rfl
@[simp] theorem readCalled_cfg : s.readCalled.cfg = s.cfg := rfl
@[simp] theorem readCalled_config : s.readCalled.config = s.config := rfl
@[simp] theorem readCalled_pending : s.readCalled.pending = s.pending := rfl
@[simp] theorem readCalled_acquireAnswers : s.readCalled.acquireAnswers = s.acquireAnswers := rfl
@[simp] theorem readCalled_readAnswers : s.readCalled.readAnswers = s.readAnswers.tail := rfl
@[simp] theorem readCalled_responses : s.readCalled.responses = s.responses := rfl
@[simp] theorem readCalled_sourceCalls : s.readCalled.sourceCalls = .read s.config.readLen s.nextRead :: s.sourceCalls := rfl
@[simp] theorem readCalled_draws : s.readCalled.draws = s.draws + 1 := rfl

/-! `releaseCalled` -/
@[simp] theorem releaseCalled_sess : s.releaseCalled.sess = s.sess := rfl
@[simp] theorem releaseCalled_cfg : s.releaseCalled.cfg = s.cfg := rfl
@[simp] theorem releaseCalled_config : s.releaseCalled.config = s.config := rfl
@[simp] theorem releaseCalled_pending : s.releaseCalled.pending = s.pending := rfl
@[simp] theorem releaseCalled_acquireAnswers : s.releaseCalled.acquireAnswers = s.acquireAnswers := rfl
@[simp] theorem releaseCalled_readAnswers : s.releaseCalled.readAnswers = s.readAnswers := rfl
@[simp] theorem releaseCalled_responses : s.releaseCalled.responses = s.responses := rfl
@[simp] theorem releaseCalled_sourceCalls : s.releaseCalled.sourceCalls = .release :: s.sourceCalls := rfl
@[simp] theorem releaseCalled_draws : s.releaseCalled.draws = s.draws := rfl

/-! `withPending` -/
@[simp] theorem withPending_sess (es : List Event) : (s.withPending es).sess = s.sess := rfl
@[simp] theorem withPending_cfg (es : List Event) : (s.withPending es).cfg = s.cfg := rfl
@[simp] theorem withPending_config (es : List Event) : (s.withPending es).config = s.config := rfl
@[simp] theorem withPending_pending (es : List Event) : (s.withPending es).pending = es := rfl
@[simp] theorem withPending_acquireAnswers (es : List Event) : (s.withPending es).acquireAnswers = s.acquireAnswers := rfl
@[simp] theorem withPending_readAnswers (es : List Event) : (s.withPending es).readAnswers = s.readAnswers := rfl
@[simp] theorem withPending_responses (es : List Event) : (s.withPending es).responses = s.responses := rfl
@[simp] theorem withPending_sourceCalls (es : List Event) : (s.withPending es).sourceCalls = s.sourceCalls := rfl
@[simp] theorem withPending_draws (es : List Event) : (s.withPending es).draws = s.draws := rfl

/-! `giveBack` and `hardReset` change the calls, SESS and CFG only. -/
@[simp] theorem giveBack_sess : s.giveBack.sess = s.sess := by unfold State.giveBack; split <;> rfl
@[simp] theorem giveBack_cfg : s.giveBack.cfg = s.cfg := by unfold State.giveBack; split <;> rfl
@[simp] theorem giveBack_config : s.giveBack.config = s.config := by unfold State.giveBack; split <;> rfl
@[simp] theorem giveBack_pending : s.giveBack.pending = s.pending := by unfold State.giveBack; split <;> rfl
@[simp] theorem giveBack_acquireAnswers : s.giveBack.acquireAnswers = s.acquireAnswers := by unfold State.giveBack; split <;> rfl
@[simp] theorem giveBack_readAnswers : s.giveBack.readAnswers = s.readAnswers := by unfold State.giveBack; split <;> rfl
@[simp] theorem giveBack_responses : s.giveBack.responses = s.responses := by unfold State.giveBack; split <;> rfl
theorem giveBack_sourceCalls :
    s.giveBack.sourceCalls = if s.sess = .closed then s.sourceCalls else .release :: s.sourceCalls := by
  unfold State.giveBack; split <;> rfl
@[simp] theorem giveBack_draws : s.giveBack.draws = s.draws := by unfold State.giveBack; split <;> rfl
@[simp] theorem hardReset_sess : s.hardReset.sess = .closed := rfl
@[simp] theorem hardReset_cfg : s.hardReset.cfg = Cfg.reset := rfl
@[simp] theorem hardReset_config : s.hardReset.config = s.config := giveBack_config s
@[simp] theorem hardReset_pending : s.hardReset.pending = s.pending := giveBack_pending s
@[simp] theorem hardReset_acquireAnswers : s.hardReset.acquireAnswers = s.acquireAnswers := giveBack_acquireAnswers s
@[simp] theorem hardReset_readAnswers : s.hardReset.readAnswers = s.readAnswers := giveBack_readAnswers s
@[simp] theorem hardReset_responses : s.hardReset.responses = s.responses := giveBack_responses s
@[simp] theorem hardReset_sourceCalls : s.hardReset.sourceCalls = s.giveBack.sourceCalls := rfl
@[simp] theorem hardReset_draws : s.hardReset.draws = s.draws := giveBack_draws s

end Sys2Proof.Machine
end

