-- ==== Sys2Proof/Laws/Session.lean ====
section
/-! SUPPORT. What each command and the step can do, said once. -/

namespace Sys2Proof.Machine

/-- What INIT does in every session state. -/
theorem execInit_cases (km : KMode) (dp : DPol) (kf : BitVec 32) (s : State) :
    (s.sess = .closed ∧ s.nextAcquire = .ok ∧ execInit km dp kf s =
      .next (((s.acquireCalled.setCfg (initOperand km dp kf)).setSess .opened).respond okResponse)) ∨
    (s.sess = .closed ∧ s.nextAcquire = .fail ∧ execInit km dp kf s = .next (s.acquireCalled.raise .sourceUnavailable)) ∨
    ((s.sess = .opened ∨ s.sess = .failed) ∧ execInit km dp kf s = .next (s.raise .illegalState)) ∨
    (s.sess = .unassigned ∧ execInit km dp kf s = .refused .sessUnassigned) := by
  unfold execInit State.bySession
  cases h : s.sess <;> cases h' : s.nextAcquire <;> simp

/-- What POLL makes of a window while CFG may be read. -/
theorem pollWindow_cases (w : Window) (s : State) (hs : s.sess ≠ .closed) :
    (∃ why, frameSearch w = .noFrame why ∧ pollWindow w s = .next (s.respond (unavailableResponse why))) ∨
    (∃ f, frameSearch w = .frame f ∧ pollWindow w s = .next (s.respond (readingOf s.config.voutTie s.cfg f))) := by
  unfold pollWindow State.readCfg
  cases h : frameSearch w <;> simp [hs]

/-- What POLL does in every session state. -/
theorem execPoll_cases (s : State) :
    (s.sess = .closed ∧ execPoll s = .next (s.raise .illegalState)) ∨
    (s.sess = .failed ∧ execPoll s = .next (s.raise .sourceUnavailable)) ∨
    (s.sess = .opened ∧ s.nextRead = .fail ∧
      execPoll s = .next ((s.readCalled.setSess .failed).raise .sourceUnavailable)) ∨
    (∃ w, s.sess = .opened ∧ s.nextRead = .bytes w ∧ s.config.readLen < w.length ∧ execPoll s = .refused .answerTooLong) ∨
    (∃ w why, s.sess = .opened ∧ s.nextRead = .bytes w ∧ w.length ≤ s.config.readLen ∧ frameSearch w = .noFrame why ∧
      execPoll s = .next (s.readCalled.respond (unavailableResponse why))) ∨
    (∃ w f, s.sess = .opened ∧ s.nextRead = .bytes w ∧ w.length ≤ s.config.readLen ∧ frameSearch w = .frame f ∧
      execPoll s = .next (s.readCalled.respond (readingOf s.config.voutTie s.cfg f))) ∨
    (s.sess = .unassigned ∧ execPoll s = .refused .sessUnassigned) := by
  cases h : s.sess with
  | closed => simp [execPoll, State.bySession, h]
  | failed => simp [execPoll, State.bySession, h]
  | unassigned => simp [execPoll, State.bySession, h]
  | opened =>
    have hp : execPoll s = pollOpened s := by simp [execPoll, State.bySession, h]
    rw [hp]
    unfold pollOpened
    cases hr : s.nextRead with
    | fail => simp
    | bytes w =>
      by_cases hl : s.config.readLen < w.length
      · simp [hl]
      · rcases pollWindow_cases w s.readCalled (by simp [h]) with ⟨why, hf, e⟩ | ⟨f, hf, e⟩ <;>
          simp only [e] <;> simp_all

/-- What RELEASE does in every session state. -/
theorem execRelease_cases (s : State) :
    (s.sess = .closed ∧ execRelease s = .next (s.respond okResponse)) ∨
    ((s.sess = .opened ∨ s.sess = .failed) ∧ execRelease s = .next (tearDown s)) ∨
    (s.sess = .unassigned ∧ execRelease s = .refused .sessUnassigned) := by
  unfold execRelease State.bySession
  cases h : s.sess <;> simp

/-- What an illegal word does in every session state. -/
theorem illegalCommand_cases (s : State) :
    (s.sess ≠ .unassigned ∧ illegalCommand s = .next (s.raise .illegalCmd)) ∨
    (s.sess = .unassigned ∧ illegalCommand s = .refused .sessUnassigned) := by
  unfold illegalCommand State.bySession
  cases h : s.sess <;> simp

/-- What an abandoned command leaves: the state, a draw counted, or a read consumed in an open session. -/
theorem abandon_cases (c : Word) (s : State) :
    abandon c s = s ∨
    (decode c = .instr .poll ∧ abandon c s = { s with draws := s.draws + 1 }) ∨
    (decode c = .instr .poll ∧ s.sess = .opened ∧ abandon c s = s.readCalled) := by
  unfold abandon State.abandonPoll
  split <;> simp_all
  split <;> simp_all

/-- What a step does: it idles, or it meets the next event. -/
theorem step_cases (s : State) :
    (s.pending = [] ∧ step s = .next s) ∨
    (∃ c es, s.pending = .command c :: es ∧ step s = perform c (s.withPending es)) ∨
    (∃ e es, s.pending = e :: es ∧ ((∃ c c', e = .overlapping c c') ∨ ∃ c, e = .sharedHandle c) ∧
      step s = .refused .concurrentUse) ∨
    (∃ es, s.pending = .reset :: es ∧ step s = .next (s.withPending es).hardReset) ∨
    (∃ c es, s.pending = .resetDuring c :: es ∧ step s = .next (abandon c (s.withPending es)).hardReset) := by
  unfold step stepEvent
  cases h : s.pending with
  | nil => simp
  | cons e es => cases e <;> simp [meet]

/-- A run whose first step goes on continues from the next state. -/
theorem run_succ_of_next (M : Host.Core) (n : Nat) (s t : M.State) (h : M.step s = .next t) : M.run (n + 1) s = M.run n t := by
  rw [Host.Core.run, h]

/-- A free draw keeps the byte source's contract (R41). -/
theorem clipAnswer_inContract (n : Nat) (a : ReadAnswer) : (clipAnswer n a).InContract n := by
  cases a <;> simp [clipAnswer, ReadAnswer.InContract]

/-- When every listed answer keeps the contract, the next answer does. -/
theorem nextRead_inContract (s : State) (h : s.SourceInContract) : s.nextRead.InContract s.config.readLen := by
  unfold State.nextRead
  cases hl : s.readAnswers with
  | nil => exact clipAnswer_inContract _ _
  | cons a as => exact h a (by simp [hl])

end Sys2Proof.Machine
end

