-- ==== Sys2Proof/Laws/Units.lean ====
section
/-! SUPPORT. What each unit can do, said once: the frame search, the rounding, the table lookup, the product. -/

namespace Sys2Proof.Machine

/-! The frame search. -/

theorem Frame.bytes_injective {f g : Frame} (h : f.bytes = g.bytes) : f = g := by
  cases f; cases g; simpa [Frame.bytes] using h

theorem frameAt_bytes (w : Window) (i : Nat) (h : i + 7 ≤ w.length) : (frameAt w i).bytes = (w.drop i).take 7 := by
  apply List.ext_getElem
  · simp [Frame.bytes]; omega
  · intro n h1 _
    have : n < 7 := by simpa [Frame.bytes] using h1
    interval_cases n <;> simp [Frame.bytes, frameAt, List.getD_eq_getElem?_getD] <;>
      rw [List.getElem?_eq_getElem (by omega)] <;> simp

/-- Index `i` is the first START of the window. -/
def FirstStart (w : Window) (i : Nat) : Prop := w[i]? = some startByte ∧ ∀ j, j < i → w[j]? ≠ some startByte

theorem FirstStart.unique {w : Window} {i j : Nat} (hi : FirstStart w i) (hj : FirstStart w j) : i = j := by
  by_contra hne
  rcases Nat.lt_or_gt_of_ne hne with h | h
  · exact hj.2 _ h hi.1
  · exact hi.2 _ h hj.1

theorem firstStart_append (pre post : Window) (h : startByte ∉ pre) : FirstStart (pre ++ startByte :: post) pre.length := by
  refine ⟨by simp, fun j hj e => ?_⟩
  rw [List.getElem?_append_left hj] at e
  exact h (List.mem_of_getElem? e)

/-- What the frame search answers. -/
theorem frameSearch_cases (w : Window) :
    (w = [] ∧ frameSearch w = .noFrame .empty) ∨
    (w ≠ [] ∧ (∀ j : Nat, w[j]? ≠ some startByte) ∧ frameSearch w = .noFrame .noStart) ∨
    ∃ i, FirstStart w i ∧
      ((w.length < i + 7 ∧ frameSearch w = .noFrame .truncated) ∨
       (i + 7 ≤ w.length ∧ frameSearch w = .frame (frameAt w i))) := by
  by_cases hw : w = []
  · exact .inl ⟨hw, by subst hw; rfl⟩
  right
  have hl : w.length ≠ 0 := by simpa using hw
  cases h : w.findIdx? (fun b => b == startByte) with
  | none =>
    left
    refine ⟨hw, fun j hj => ?_, by simp [frameSearch, h, hl]⟩
    rw [List.findIdx?_eq_none_iff] at h
    simpa using h _ (List.mem_of_getElem? hj)
  | some i =>
    right
    have h' := h
    rw [List.findIdx?_eq_some_iff_getElem] at h'
    obtain ⟨hi, h1, h2⟩ := h'
    refine ⟨i, ⟨by rw [List.getElem?_eq_getElem hi, eq_of_beq h1], fun j hj e => ?_⟩, ?_⟩
    · rw [List.getElem?_eq_getElem (by omega)] at e
      have := h2 j hj
      simp_all
    · by_cases hlen : w.length < i + 7
      · have : w.length - i < frameLen := by unfold frameLen; omega
        exact .inl ⟨hlen, by simp [frameSearch, h, hl, this]⟩
      · have : ¬ w.length - i < frameLen := by unfold frameLen; omega
        exact .inr ⟨by omega, by simp [frameSearch, h, hl, this]⟩

/-! The scaler. -/

theorem rne_bounds (n : Nat) : 128 * rne n 64 ≤ 2 * n + 64 ∧ 2 * n ≤ 128 * rne n 64 + 64 ∧
    (128 * rne n 64 = 2 * n + 64 ∨ 2 * n = 128 * rne n 64 + 64 → rne n 64 % 2 = 0) := by
  unfold rne; split_ifs <;> omega

theorem roundHalfUp_bounds (n : Nat) : 128 * roundHalfUp n 64 ≤ 2 * n + 64 ∧ 2 * n < 128 * roundHalfUp n 64 + 64 := by
  unfold roundHalfUp; split_ifs <;> omega

/-- Under either tie rule the rounded value is within half of the exact one. -/
theorem roundBy_bounds (t : Tie) (n : Nat) : 128 * roundBy t n 64 ≤ 2 * n + 64 ∧ 2 * n ≤ 128 * roundBy t n 64 + 64 := by
  cases t
  · exact ⟨(rne_bounds n).1, (rne_bounds n).2.1⟩
  · exact ⟨(roundHalfUp_bounds n).1, (roundHalfUp_bounds n).2.le⟩

theorem voutOfRaw_toNat (t : Tie) (raw : BitVec 16) : (voutOfRaw t raw).toNat = roundBy t (raw.toNat * 3125) 64 := by
  have := raw.isLt
  have := roundBy_bounds t (raw.toNat * 3125)
  rw [voutOfRaw, BitVec.toNat_ofNat, Nat.mod_eq_of_lt]; omega

theorem voutOfRaw_le (t : Tie) (raw : BitVec 16) : (voutOfRaw t raw).toNat ≤ 3199951 := by
  have := raw.isLt
  have := roundBy_bounds t (raw.toNat * 3125)
  rw [voutOfRaw_toNat]; omega

theorem rawOf_toNat (f : Frame) : (rawOf f).toNat = f.b1.toNat * 256 + f.b2.toNat := by
  have := f.b1.isLt
  have := f.b2.isLt
  simp [rawOf, BitVec.toNat_add, BitVec.toNat_mul]; omega

/-! The calibration. -/

theorem lookupBand_below {v b k : Nat} {bs : List Band} (h : v < b) : lookupBand v (⟨b, k⟩ :: bs) = k := if_pos h

theorem lookupBand_above {v b k : Nat} {bs : List Band} (h : b ≤ v) : lookupBand v (⟨b, k⟩ :: bs) = lookupBand v bs :=
  if_neg (by simpa using h)

theorem lookupBand_fallback {v : Nat} : lookupBand v [] = 3000 := rfl

/-- A lookup answers the fallback or a coefficient of the table. -/
theorem lookupBand_mem (v : Nat) : ∀ l : List Band, lookupBand v l ∈ 3000 :: l.map Band.kint
  | [] => by simp [lookupBand, kfallback]
  | b :: bs => by
    have := lookupBand_mem v bs
    unfold lookupBand; split
    · simp
    · simp only [List.map_cons, List.mem_cons] at *; tauto

theorem lookupBand_ktab_le (v : Nat) : lookupBand v ktab ≤ 3000 := by
  have h : ∀ k ∈ 3000 :: ktab.map Band.kint, k ≤ 3000 := by decide
  exact h _ (lookupBand_mem v ktab)

theorem coeffStepped_toNat (v : BitVec 22) : (coeffStepped v).toNat = lookupBand v.toNat ktab * 10000 := by
  have := lookupBand_ktab_le v.toNat
  rw [coeffStepped, BitVec.toNat_ofNat]; omega

/-- The product of any 32-bit coefficient and any 22-bit Vout fits 64 bits (R127). -/
theorem product_toNat (k : BitVec 32) (v : BitVec 22) : (product k v).toNat = k.toNat * v.toNat := by
  have h1 := k.isLt
  have h2 := v.isLt
  have : k.toNat * v.toNat < 2 ^ 32 * 2 ^ 22 := Nat.mul_lt_mul'' h1 h2
  simp only [product, zext64, BitVec.toNat_mul, BitVec.toNat_setWidth]
  rw [Nat.mod_eq_of_lt (by omega : k.toNat < 2 ^ 64), Nat.mod_eq_of_lt (by omega : v.toNat < 2 ^ 64),
    Nat.mod_eq_of_lt (by omega)]

theorem density_trunc_toNat (k : BitVec 32) (v : BitVec 22) :
    (density .trunc k v).toNat = (product k v).toNat / 100000000 * 100000000 := by
  have hle := Nat.div_mul_le_self (product k v).toNat 100000000
  have hlt := (product k v).isLt
  have e : (100000000#64).toNat = 100000000 := rfl
  have hd : density .trunc k v = product k v / 100000000#64 * 100000000#64 := rfl
  rw [hd, BitVec.toNat_mul, BitVec.toNat_udiv, e, Nat.mod_eq_of_lt (by omega)]

end Sys2Proof.Machine
end

