-- ==== Sys2Proof/Tests/Slice0.lean ====
section
/-! SUPPORT. Tests with results taken from spec/95_test_vectors.md, the smoke of WellFormed, and a witness for the
hypotheses of every statement that has some. -/

namespace Sys2Proof.Machine.Tests

/-- The next state an outcome holds. -/
def nextOf : Outcome → Option State
  | .next t => some t
  | .fault _ => none
  | .refused _ => none

/-- The refusal an outcome holds. -/
def refusalOf : Outcome → Option Refusal
  | .next _ => none
  | .fault _ => none
  | .refused r => some r

/-- A session state with what the caller sends and the byte source answers. -/
def stateOf (x : Sess) (c : Cfg) (es : List Event) (acq : List AcquireAnswer) (rd : List ReadAnswer) : State :=
  { State.reset with sess := x, cfg := c, pending := es, acquireAnswers := acq, readAnswers := rd }

def legacy : Cfg := ⟨.stepped, 0#32, .trunc⟩
def configured : Cfg := ⟨.fixed, 15000#32, .precise⟩

/-- An open session with legacy configuration whose next read delivers `w` and whose caller sends a POLL. -/
def polling (w : Window) : State := stateOf .opened legacy [.command 2#64] [] [.bytes w]

/-! ## WellFormed: an ill-formed term for each check -/

theorem test_wf_refuses_negative_k : Decimal.wf ⟨true, 1, [5]⟩ = false := by decide
theorem test_wf_refuses_five_digits : Decimal.wf ⟨false, 1, [0, 0, 0, 0, 1]⟩ = false := by decide
theorem test_wf_refuses_k_too_large : Decimal.wf ⟨false, 429496, [7, 2, 9, 6]⟩ = false := by decide
theorem test_wf_takes_largest_k : Decimal.wf ⟨false, 429496, [7, 2, 9, 5]⟩ = true := by decide
theorem test_wf_refuses_missing_kmode : AsmLine.wf (.init [.dpol .trunc]) = false := by decide
theorem test_wf_refuses_missing_dpol : AsmLine.wf (.init [.kmode .fixed]) = false := by decide
theorem test_wf_refuses_two_kmodes : AsmLine.wf (.init [.kmode .fixed, .kmode .fixed, .dpol .trunc]) = false := by decide
theorem test_wf_refuses_two_ks :
    AsmLine.wf (.init [.kmode .fixed, .dpol .trunc, .k ⟨false, 1, []⟩, .k ⟨false, 1, []⟩]) = false := by decide
theorem test_wf_refuses_bad_k_in_line :
    AsmLine.wf (.init [.kmode .fixed, .dpol .trunc, .k ⟨true, 1, []⟩]) = false := by decide
theorem test_wf_refuses_bad_configured_k : AsmLine.wf (.initConfigured ⟨false, 0, [1, 2, 3, 4, 5]⟩) = false := by decide

/-! ## Decode: words written out from R60 (95 section 2.6, W4, W5, W9, W11 to W20) -/

theorem test_decode_init_fixed_trunc :
    decode 0x0000000027100101#64 = .instr (.init .fixed .trunc 10000#32) := by decide
/-- `1.5` is KFIX 0x3A98 in bits 47:16, DPOL bit 9, KMODE bit 8, OPC 0x01. -/
theorem test_decode_init_bit_by_bit :
    decode 0b0000000000000000000000000000000000111010100110000000001100000001#64 = .instr (.init .fixed .precise 15000#32) := by
  decide
theorem test_decode_poll : decode 0x0000000000000002#64 = .instr .poll := by decide
theorem test_decode_release : decode 0x0000000000000003#64 = .instr .release := by decide
theorem test_decode_rejects_opcodes :
    [0x00#64, 0x04#64, 0xFF#64].map decode = [.illegal .opcode, .illegal .opcode, .illegal .opcode] := by decide
theorem test_decode_rejects_reserved_bits :
    [0x0000000000000401#64, 0x0001000000000001#64, 0x8000000000000001#64, 0x0000000000000102#64, 0x0000000000010003#64].map decode =
      List.replicate 5 (.illegal .reservedBits) := by decide
theorem test_decodeTableWord_rows :
    [1, 2, 3, 0, 0x0000FFFFFFFF0301].map (decodeTableWord 64) =
      [some (.init .stepped .trunc 0#32), some .poll, some .release, none, some (.init .fixed .precise 0xFFFFFFFF#32)] := by
  decide
theorem test_withFetchWord_is_performed_next :
    (nextOf (step (State.reset.withFetchWord 64 2))).map (fun t => (t.responses.map Response.status, t.pending)) =
      some ([.illegalState], []) := by decide

/-! ## The assembler (R73, R74) -/

theorem test_assemble_example :
    (assemble (.init [.kmode .fixed, .dpol .precise, .k ⟨false, 1, [5]⟩])).map encode = some 0x000000003A980301#64 := by decide
theorem test_assemble_configured_3000 :
    (assemble (.initConfigured ⟨false, 3000, []⟩)).map encode = some 0x000001C9C3800301#64 := by decide

/-! ## The units (95 sections 2.1 to 2.5) -/

/-- F1, F2, F3, F6, F8, F9. -/
theorem test_frameSearch_without_frame :
    [[], [0xAA#8], [0xAA#8, 0, 0x61#8, 0, 0, 0], List.replicate 14 0#8, List.replicate 8 0#8 ++ [0xAA#8, 1, 2, 3, 4, 5],
      List.replicate 7 0#8 ++ [0xAA#8, 0, 0x10#8, 0, 0, 0]].map frameSearch =
    [.noFrame .empty, .noFrame .truncated, .noFrame .truncated, .noFrame .noStart, .noFrame .truncated, .noFrame .truncated] := by
  decide

/-- F5, F7, F11, F12, F13. -/
theorem test_frameSearch_with_frame :
    [[0x12#8, 0x34#8, 0xAA#8, 0, 0x61#8, 0, 0, 0, 0xFF#8, 0x56#8], List.replicate 7 0#8 ++ [0xAA#8, 1, 2, 3, 4, 5, 6],
      [0xAA#8, 0xAA#8, 1, 2, 3, 4, 5], [0x55#8, 0xAA#8, 0, 2, 0, 0, 0, 0xFF#8, 0xAA#8, 0, 3, 0, 0, 0],
      [1, 2, 3, 0xAA#8, 0, 1, 2, 3, 4, 0xAA#8, 0, 5, 6, 7]].map frameSearch =
    [.frame ⟨0xAA#8, 0, 0x61#8, 0, 0, 0, 0xFF#8⟩, .frame ⟨0xAA#8, 1, 2, 3, 4, 5, 6⟩, .frame ⟨0xAA#8, 0xAA#8, 1, 2, 3, 4, 5⟩,
      .frame ⟨0xAA#8, 0, 2, 0, 0, 0, 0xFF#8⟩, .frame ⟨0xAA#8, 0, 1, 2, 3, 4, 0xAA#8⟩] := by decide

/-- D1, D2, D5, D6, D8, D10, D12, D14 to D19. -/
theorem test_decodeFrame_vectors :
    [(0#8, 0#8), (0, 1), (0, 0x1F#8), (0, 0x20#8), (0, 0x60#8), (0, 0xA0#8), (0, 0xE0#8), (1, 0), (3, 0xFF#8), (4, 0),
      (7, 0xFF#8), (0xAA#8, 1), (0xFF#8, 0xFF#8)].map
      (fun b => (decodeFrame .halfEven ⟨0xAA#8, b.1, b.2, 9, 9, 9, 9⟩).toNat) =
    [0, 49, 1514, 1562, 4688, 7812, 10938, 12500, 49951, 50000, 99951, 2125049, 3199951] := by decide

/-- The half-up values R105 compares with: RAW 32, 96, 160. -/
theorem test_halfUp_vectors : [32#16, 96, 160].map (fun r => (voutOfRaw .halfUp r).toNat) = [1563, 4688, 7813] := by decide

/-- Both sides of every bound (95 section 2.3). -/
theorem test_coeffStepped_bounds :
    [0#22, 459, 460, 489, 490, 519, 520, 549, 550, 589, 590, 649, 650, 709, 710, 759, 760, 809, 810, 859, 860, 909, 910, 1009,
      1010, 1109, 1110, 3199951].map (fun v => (coeffStepped v).toNat / 10000) =
    [200, 200, 400, 400, 600, 600, 750, 750, 900, 900, 1000, 1000, 1250, 1250, 1400, 1400, 1700, 1700, 1800, 1800, 1900, 1900,
      2000, 2000, 2200, 2200, 3000, 3000] := by decide

/-- R124's samples at the ends of each band. -/
theorem test_coeffStepped_samples :
    [0#16, 9, 10, 11, 12, 13, 14, 15, 16, 17, 18, 19, 20, 21, 22, 23, 65535].map
      (fun r => (coeffStepped (voutOfRaw .halfEven r)).toNat / 10000) =
    [200, 200, 400, 750, 900, 1000, 1250, 1400, 1700, 1800, 1900, 2000, 2000, 2200, 2200, 3000, 3000] := by decide

/-- E1, E2, E6, E8, E15. -/
theorem test_density_vectors :
    [(30000000#32, 4736#22), (2000000, 49), (30000000, 10010), (30000000, 3199951), (4294967295, 3199951)].map
      (fun p => ((density .trunc p.1 p.2).toNat, (density .precise p.1 p.2).toNat)) =
    [(142000000000, 142080000000), (0, 98000000), (300300000000, 300300000000), (95998500000000, 95998530000000),
      (13743684800000000, 13743684890602545)] := by decide

/-! ## The commands (95 section 2.7) -/

/-- T1. -/
theorem test_init_opens :
    (nextOf (exec (.init .fixed .precise 15000#32) (stateOf .closed legacy [] [.ok] []))).map (fun t => (t.sess, t.cfg, t.responses)) =
      some (.opened, configured, [okResponse]) := by decide
/-- T2, T3, T4. -/
theorem test_init_failures :
    [stateOf .closed legacy [] [.fail] [], stateOf .opened legacy [] [.ok] [], stateOf .failed legacy [] [.ok] []].map
      (fun s => (nextOf (exec (.init .fixed .precise 15000#32) s)).map (fun t => (t.sess, t.cfg, t.responses.map Response.status))) =
    [some (.closed, legacy, [.sourceUnavailable]), some (.opened, legacy, [.illegalState]), some (.failed, legacy, [.illegalState])] := by
  decide
/-- T11, and its source call. -/
theorem test_poll_reading :
    (nextOf (step (polling [0x12#8, 0x34#8, 0xAA#8, 0, 0x61#8, 0, 0, 0, 0xFF#8, 0x56#8]))).map (fun t => (t.sess, t.responses, t.readAnswers)) =
      some (.opened, [⟨.reading, none, .trunc, 4736#32, 30000000#32, 142000000000#64⟩], []) := by decide
/-- T5, T6, T7, T8, T9, T10. -/
theorem test_poll_without_reading :
    [stateOf .closed legacy [] [] [], stateOf .opened legacy [] [] [.fail], stateOf .failed legacy [] [] [],
      polling [], polling (List.replicate 14 0#8), polling (List.replicate 8 0#8 ++ [0xAA#8, 1, 2, 3, 4, 5])].map
      (fun s => (nextOf (exec .poll s)).map (fun t => (t.sess, t.responses, t.sourceCalls.length))) =
    [some (.closed, [Response.blank .illegalState none], 0), some (.failed, [Response.blank .sourceUnavailable none], 1),
      some (.failed, [Response.blank .sourceUnavailable none], 0), some (.opened, [Response.blank .unavailable (some .empty)], 1),
      some (.opened, [Response.blank .unavailable (some .noStart)], 1),
      some (.opened, [Response.blank .unavailable (some .truncated)], 1)] := by decide
/-- T12, T13, T14. -/
theorem test_release :
    [stateOf .opened legacy [] [] [], stateOf .failed legacy [] [] [], stateOf .closed legacy [] [] []].map
      (fun s => (nextOf (exec .release s)).map (fun t => (t.sess, t.responses, t.sourceCalls))) =
    [some (.closed, [okResponse], [.release]), some (.closed, [okResponse], [.release]), some (.closed, [okResponse], [])] := by decide
/-- T15, T16, T17, T18. -/
theorem test_illegal_words_and_a_long_read :
    [stateOf .closed legacy [.command 0#64] [] [], stateOf .opened legacy [.command 0x102#64] [] [],
      stateOf .failed legacy [.command 0x401#64] [] []].map
      (fun s => (nextOf (step s)).map (fun t => (t.sess, t.responses.map Response.status, t.sourceCalls))) =
    [some (.closed, [.illegalCmd], []), some (.opened, [.illegalCmd], []), some (.failed, [.illegalCmd], [])] ∧
    refusalOf (step (polling (List.replicate 15 0#8))) = some .answerTooLong := by decide
/-- T19, and a concurrent use. -/
theorem test_reset_event_and_overlap :
    (nextOf (step (stateOf .opened configured [.reset] [] []))).map (fun t => (t.sess, t.responses, t.sourceCalls)) =
      some (.closed, [], [.release]) ∧
    refusalOf (step (stateOf .opened configured [.overlapping 2#64 2#64] [] [])) = some .concurrentUse := by decide

/-! ## Witnesses: a state and operands for the hypotheses of each statement -/

theorem witness_DecodeOfEncodeIsTheCommand : (Instr.init .fixed .precise 0xFFFFFFFF#32).wf = true := by decide

theorem witness_EncodeOfDecodeIsTheWord :
    decode 0x0000FFFFFFFF0301#64 = .instr (.init .fixed .precise 0xFFFFFFFF#32) := by decide

def initing : State := stateOf .closed legacy [.command 0x0000FFFFFFFF0301#64] [.ok] []

theorem witness_InitWordFieldsReachCfg :
    initing.pending = [.command 0x0000FFFFFFFF0301#64] ∧
    0x0000FFFFFFFF0301#64 &&& 0xFFFF00000000FCFF#64 = 0x0000000000000001#64 ∧
    initing.sess = .closed ∧ initing.nextAcquire = .ok := by decide

theorem witness_StepPerformsTheDecodedCommand :
    initing.pending = [.command 0x0000FFFFFFFF0301#64] ∧
    decode 0x0000FFFFFFFF0301#64 = .instr (.init .fixed .precise 0xFFFFFFFF#32) ∧
    (Instr.init .fixed .precise 0xFFFFFFFF#32).wf = true := by decide

/-- One illegal word of each kind: another OPC, INIT's bits 10 and 48, POLL's bit 8, RELEASE's bit 63. -/
theorem witness_IllegalWordAnswersIllegalCmd :
    (stateOf .failed legacy [.command 0x401#64] [] []).pending = [.command 0x401#64] ∧
    (stateOf .failed legacy [.command 0x401#64] [] []).sess ≠ .unassigned ∧
    IllegalNumber (0x401#64).toNat ∧ IllegalNumber (0x0001000000000001#64).toNat ∧ IllegalNumber (0x102#64).toNat ∧
    IllegalNumber (0x8000000000000003#64).toNat ∧ IllegalNumber (4#64).toNat := by
  unfold IllegalNumber; decide

theorem witness_IdleStepHoldsTheState : State.reset.pending = [] := rfl

theorem witness_InitBuildsASessionFromClosed :
    ((stateOf .closed legacy [] [.ok] []).sess = .closed ∧ (stateOf .closed legacy [] [.ok] []).nextAcquire = .ok) ∧
    ((stateOf .closed legacy [] [.fail] []).sess = .closed ∧ (stateOf .closed legacy [] [.fail] []).nextAcquire = .fail) ∧
    (stateOf .opened legacy [] [] []).sess = .opened ∧ (stateOf .failed legacy [] [] []).sess = .failed := by decide

theorem witness_PollOutsideAnOpenSession : State.reset.sess = .closed ∧ (stateOf .failed legacy [] [] []).sess = .failed := by
  decide

theorem witness_PollReadFailureFailsTheSession :
    (stateOf .opened legacy [] [] [.fail]).sess = .opened ∧ (stateOf .opened legacy [] [] [.fail]).nextRead = .fail := by decide

/-- The three cases, each at its edge: no byte, 14 bytes without a START, and 5 bytes after a START at index 8. -/
theorem witness_PollWithoutAFrameIsUnavailable :
    ((polling []).sess = .opened ∧ (polling []).nextRead = .bytes [] ∧ [].length (α := Byte) ≤ (polling []).config.readLen) ∧
    ((polling (List.replicate 14 0#8)).nextRead = .bytes (List.replicate 14 0#8) ∧
      (List.replicate 14 0#8).length ≤ (polling []).config.readLen ∧ List.replicate 14 0#8 ≠ [] ∧ 0xAA#8 ∉ List.replicate 14 0#8) ∧
    ((polling (List.replicate 8 0#8 ++ 0xAA#8 :: [1, 2, 3, 4, 5])).nextRead = .bytes (List.replicate 8 0#8 ++ 0xAA#8 :: [1, 2, 3, 4, 5]) ∧
      (List.replicate 8 0#8 ++ 0xAA#8 :: [1, 2, 3, 4, 5]).length ≤ (polling []).config.readLen ∧
      0xAA#8 ∉ List.replicate 8 0#8 ∧ [1#8, 2, 3, 4, 5].length < 6) := by decide

/-- The last index a frame fits at: 7 bytes before it, none after, 14 in all. Each strategy and policy. -/
theorem witness_PollWithAFrameIsAReading :
    (polling (List.replicate 7 0#8 ++ [0xAA#8, 1, 2, 3, 4, 5, 6] ++ [])).sess = .opened ∧
    (polling (List.replicate 7 0#8 ++ [0xAA#8, 1, 2, 3, 4, 5, 6] ++ [])).nextRead =
      .bytes (List.replicate 7 0#8 ++ [0xAA#8, 1, 2, 3, 4, 5, 6] ++ []) ∧
    0xAA#8 ∉ List.replicate 7 0#8 ∧ (List.replicate 7 0#8).length + 7 + [].length (α := Byte) ≤ (polling []).config.readLen ∧
    legacy.kmode = .stepped ∧ configured.kmode = .fixed ∧ legacy.dpol = .trunc ∧ configured.dpol = .precise := by decide

theorem witness_ReadingMeetsTheExposedContract :
    (polling ([] ++ [0xAA#8, 0, 0x61#8, 0, 0, 0, 0xFF#8] ++ [])).sess = .opened ∧
    (polling ([] ++ [0xAA#8, 0, 0x61#8, 0, 0, 0, 0xFF#8] ++ [])).nextRead = .bytes ([] ++ [0xAA#8, 0, 0x61#8, 0, 0, 0, 0xFF#8] ++ []) ∧
    0xAA#8 ∉ ([] : Window) ∧ ∃ t, exec .poll (polling ([] ++ [0xAA#8, 0, 0x61#8, 0, 0, 0, 0xFF#8] ++ [])) = .next t :=
  ⟨rfl, rfl, by decide, _, rfl⟩

theorem witness_CommandsRefuseWhatHasNoMeaning :
    (polling (List.replicate 15 0#8)).sess = .opened ∧ (polling (List.replicate 15 0#8)).nextRead = .bytes (List.replicate 15 0#8) ∧
    (polling []).config.readLen < (List.replicate 15 0#8).length ∧ (stateOf .unassigned legacy [] [] []).sess = .unassigned := by
  decide

/-- Two states that differ in everything a POLL does not depend on. -/
theorem witness_PollsAreIndependent :
    let s₁ := polling [0xAA#8, 0, 0x61#8, 0, 0, 0, 0xFF#8]
    let s₂ := { s₁ with pending := [], responses := [okResponse], draws := 5, sourceCalls := [.release] }
    s₁.sess = s₂.sess ∧ s₁.cfg = s₂.cfg ∧ s₁.config = s₂.config ∧ s₁.nextRead = s₂.nextRead ∧ s₁ ≠ s₂ := by decide

/-- The refused case of the same statement. -/
theorem witness_PollsAreIndependent_refused : exec .poll (polling (List.replicate 15 0#8)) = .refused .answerTooLong := rfl

theorem witness_SteppedModeIgnoresKfix :
    (polling [0xAA#8, 0, 0x61#8, 0, 0, 0, 0xFF#8]).cfg.kmode = .stepped ∧
    ∃ t, exec .poll (polling [0xAA#8, 0, 0x61#8, 0, 0, 0, 0xFF#8]) = .next t := ⟨rfl, _, rfl⟩

theorem witness_ReleaseEndsTheSession :
    (stateOf .opened legacy [] [] []).sess = .opened ∧ (stateOf .failed legacy [] [] []).sess = .failed ∧
    State.reset.sess = .closed := by decide

/-- A 14-byte window of back-to-back frames that starts after the first byte of one. -/
theorem witness_FramerHasTheSourcesProperties :
    let w : Window := [0, 0, 0, 0, 0, 0, 0xAA#8, 0, 0, 0, 0, 0, 0, 0xAA#8]
    (w[6]? = some 0xAA#8 ∧ 6 + 6 < w.length) ∧ (w.length = 14 ∧ 6 < 7 ∧ w[6 + 7]? = some 0xAA#8) ∧
    [0xAA#8, 1, 2, 3, 4, 5].length < 7 ∧
    ([0#8, 0xAA#8, 1, 2, 3, 4, 5][1]? = some 0xAA#8 ∧ (∀ k, k < 1 → [0#8, 0xAA#8, 1, 2, 3, 4, 5][k]? ≠ some 0xAA#8) ∧
      [0#8, 0xAA#8, 1, 2, 3, 4, 5].length - (1 + 1) < 6) := by decide

theorem witness_FramerHasTheSourcesProperties_noStart : ∀ j : Nat, ([] : Window)[j]? ≠ some 0xAA#8 := by simp

theorem witness_FramerDiscardsWhatSurroundsTheFrame :
    0xAA#8 ∉ [0x12#8, 0x34#8] ∧ (Frame.mk 0xAA#8 0xAA#8 1 2 3 4 5).start = 0xAA#8 := by decide

theorem witness_ScalerRoundsTheExactVoltage_tie :
    |((decodeFrame .halfEven ⟨0xAA#8, 0, 0x20#8, 0, 0, 0, 0⟩).toNat : Rat) - vExact (0 * 256 + 32) * 10000| = 1 / 2 := by
  rw [show (decodeFrame .halfEven ⟨0xAA#8, 0, 0x20#8, 0, 0, 0, 0⟩).toNat = 1562 by decide]
  norm_num [vExact, abs_eq]

theorem witness_VoutStaysInItsRange : (1023#16).toNat ≤ 1023 ∧ (1024#16).toNat ≤ 1024 ∧ ¬ (1025#16).toNat ≤ 1024 := by decide

theorem witness_VoutIsStrictlyIncreasing : (0#16).toNat < (1#16).toNat ∧ (65534#16).toNat < (65535#16).toNat := by decide

/-- The lowest value of each band of the table, its highest is in `test_coeffStepped_bounds`. -/
theorem witness_SteppedBandsAreThoseOfTheTable :
    [0#22, 460, 490, 520, 550, 590, 650, 710, 760, 810, 860, 910, 1010, 1110].map BitVec.toNat =
      [0, 460, 490, 520, 550, 590, 650, 710, 760, 810, 860, 910, 1010, 1110] ∧
    [9#16, 10, 11, 12, 13, 14, 15, 16, 17, 18, 19, 20, 21, 22, 23].map BitVec.toNat =
      [9, 10, 11, 12, 13, 14, 15, 16, 17, 18, 19, 20, 21, 22, 23] := by decide

theorem witness_CoefficientFollowsTheStrategy : legacy.kmode = .stepped ∧ configured.kmode = .fixed := by decide

/-- An open session that meets the invariant, and a step from it. -/
def running : State :=
  { polling [0xAA#8, 0, 0x61#8, 0, 0, 0, 0xFF#8] with sourceCalls := [.acquire .ok], responses := [okResponse] }

theorem witness_EveryStepKeepsTheInvariant : running.Inv ∧ ∃ t, step running = .next t := by
  refine ⟨⟨by decide, by decide, by decide, ?_⟩, _, rfl⟩
  intro r hr
  obtain rfl : r = okResponse := by simpa [running] using hr
  constructor <;> simp [okResponse, Response.blank]

/-- One state for each row of R154's table that a POLL, an INIT or a RELEASE takes. -/
theorem witness_EveryCommandTakesARowOfTheTransitionTable :
    (running.pending = [.command 2#64] ∧ ∃ t, step running = .next t) ∧
    (initing.pending = [.command 0x0000FFFFFFFF0301#64] ∧ ∃ t, step initing = .next t) ∧
    ((stateOf .failed legacy [.command 3#64] [] []).pending = [.command 3#64] ∧
      ∃ t, step (stateOf .failed legacy [.command 3#64] [] []) = .next t) ∧
    ((stateOf .closed legacy [.command 0#64] [] []).pending = [.command 0#64] ∧
      ∃ t, step (stateOf .closed legacy [.command 0#64] [] []) = .next t) :=
  ⟨⟨rfl, _, rfl⟩, ⟨rfl, _, rfl⟩, ⟨rfl, _, rfl⟩, rfl, _, rfl⟩

/-- One word and one state for each check of R177, in its order: the word's decoding, and what the check looks at. -/
theorem witness_ChecksComeInTheirOrder :
    IllegalNumber (0#64).toNat ∧ ¬ IllegalNumber (1#64).toNat ∧ ¬ IllegalNumber (2#64).toNat ∧ ¬ IllegalNumber (3#64).toNat ∧
    decode 1#64 = .instr (.init .stepped .trunc 0#32) ∧ decode 2#64 = .instr .poll ∧ decode 3#64 = .instr .release ∧
    (stateOf .failed legacy [.command 1#64] [] []).sess ≠ .closed ∧ (stateOf .closed legacy [.command 2#64] [] []).sess = .closed ∧
    (stateOf .failed legacy [.command 2#64] [] []).sess = .failed ∧
    (stateOf .closed legacy [.command 1#64] [.fail] []).nextAcquire = .fail ∧
    (stateOf .opened legacy [.command 2#64] [] [.fail]).nextRead = .fail ∧
    (polling (List.replicate 15 0#8)).nextRead = .bytes (List.replicate 15 0#8) ∧
    frameSearch (List.replicate 14 0#8) = .noFrame .noStart ∧
    frameSearch (List.replicate 7 0#8 ++ [0xAA#8, 1, 2, 3, 4, 5, 6]) = .frame ⟨0xAA#8, 1, 2, 3, 4, 5, 6⟩ ∧
    (stateOf .opened legacy [.command 3#64] [] []).sess ≠ .unassigned := by
  unfold IllegalNumber; decide

/-- A POLL whose read fails, a POLL before INIT, and an illegal word: a step, its response and that response's status. -/
theorem witness_FaultsArePrecise :
    [stateOf .opened legacy [.command 2#64] [] [.fail], stateOf .closed legacy [.command 2#64] [] [],
      stateOf .failed legacy [.command 0#64] [] []].map
      (fun s => (nextOf (step s)).map (fun t => (t.responses.map Response.status, t.sess))) =
    [some ([.sourceUnavailable], .failed), some ([.illegalState], .closed), some ([.illegalCmd], .failed)] := by decide

theorem witness_CfgIsFixedWithinASession :
    running.sess ≠ .closed ∧ ∃ t, step running = .next t ∧ t.sess ≠ .closed := ⟨by decide, _, rfl, by decide⟩

/-- FAILED left by RELEASE and by a reset, and kept by a POLL. -/
theorem witness_FailedIsStickyUntilRelease :
    (∃ t, step (stateOf .failed legacy [.command 3#64] [] []) = .next t) ∧
    (∃ t, step (stateOf .failed legacy [.reset] [] []) = .next t) ∧
    (∃ t, step (stateOf .failed legacy [.resetDuring 2#64] [] []) = .next t) ∧
    ((stateOf .failed legacy [.command 2#64] [] []).sess = .failed ∧
      (stateOf .failed legacy [.command 2#64] [] []).pending = [.command 2#64] ∧
      ∃ t, step (stateOf .failed legacy [.command 2#64] [] []) = .next t) :=
  ⟨⟨_, rfl⟩, ⟨_, rfl⟩, ⟨_, rfl⟩, rfl, rfl, _, rfl⟩

theorem witness_RecordsAreNeverReadBack : ∃ t, step running = .next t := ⟨_, rfl⟩

theorem witness_UnspecifiedCfgIsNeverSeen : initing.sess = .closed ∧ ∃ t, step initing = .next t := ⟨rfl, _, rfl⟩

theorem witness_ResetReleasesAHeldHandle :
    (stateOf .opened configured [.reset] [] []).pending = [.reset] ∧
    (stateOf .opened configured [.resetDuring 2#64] [] []).pending = [.resetDuring 2#64] := by decide

/-- The refused steps of R178: each case. -/
theorem witness_StepsAreRefusedOnlyAsListed :
    refusalOf (step (stateOf .opened legacy [.overlapping 2#64 2#64] [] [])) = some .concurrentUse ∧
    refusalOf (step (stateOf .opened legacy [.sharedHandle 2#64] [] [])) = some .concurrentUse ∧
    refusalOf (step (stateOf .unassigned legacy [.command 0#64] [] [])) = some .sessUnassigned ∧
    refusalOf (step (polling (List.replicate 15 0#8))) = some .answerTooLong := by decide

/-- A session of one POLL whose read delivers a full window. -/
def session : State :=
  stateOf .closed legacy
    (.command (encode (.init .fixed .precise 15000#32)) ::
      (List.replicate 1 (.command (encode .poll)) ++ [.command (encode .release)]))
    [.ok] [.bytes (List.replicate 14 0xAA#8)]

theorem witness_AWellFormedSessionRunsToItsEnd :
    session.sess = .closed ∧ session.nextAcquire = .ok ∧ session.SourceInContract ∧
    session.pending = .command (encode (.init .fixed .precise 15000#32)) ::
      (List.replicate 1 (.command (encode .poll)) ++ [.command (encode .release)]) := by
  refine ⟨rfl, rfl, ?_, rfl⟩
  intro a ha
  obtain rfl : a = .bytes (List.replicate 14 0xAA#8) := by simpa [session, stateOf] using ha
  decide

theorem witness_PseudoInstructionsAssembleToTheirWords : Decimal.wf ⟨false, 1, [5]⟩ = true := by decide

/-- The largest coefficient is taken, and the next one refused, at the edge of each check. -/
theorem witness_AssemblerIsExactAndOrderFree :
    [InitKeyword.kmode .fixed, .dpol .trunc].Perm [.dpol .trunc, .kmode .fixed] ∧
    ((Decimal.mk false 429496 [7, 2, 9, 5]).frac.length ≤ 4 ∧ decimalValue ⟨false, 429496, [7, 2, 9, 5]⟩ ≤ 4294967295 / 10000) ∧
    4294967295 / 10000 < decimalValue ⟨false, 429496, [7, 2, 9, 6]⟩ ∧
    4 < (Decimal.mk false 0 [0, 0, 0, 0, 1]).frac.length ∧ (Decimal.mk true 1 []).negative = true := by
  refine ⟨by decide, ⟨by decide, ?_⟩, ?_, by decide, rfl⟩ <;> norm_num [decimalValue, fracValue]

end Sys2Proof.Machine.Tests
end

/-! Family 10_state: the invariant of every step, CFG within and outside a session, and the records. The proofs go through
one relation, `Answered`, which lists the ways a command is answered. -/

namespace Sys2Proof.Machine

/-! ## What an answered command and a step have done -/

/-- `Answered c s t`: the command word `c`, performed in `s`, is answered and leaves `t`. One constructor per row of R154's
table of transitions, POLL's answered read taken apart as in R148 and R149. -/
inductive Answered (c : Word) (s : State) : State → Prop where
  | illegal {why} (hd : decode c = .illegal why) (hs : s.sess ≠ .unassigned) : Answered c s (s.raise .illegalCmd)
  | initOpens {km dp kf} (hd : decode c = .instr (.init km dp kf)) (hs : s.sess = .closed) (ha : s.nextAcquire = .ok) :
      Answered c s (((s.acquireCalled.setCfg (initOperand km dp kf)).setSess .opened).respond okResponse)
  | initFails {km dp kf} (hd : decode c = .instr (.init km dp kf)) (hs : s.sess = .closed) (ha : s.nextAcquire = .fail) :
      Answered c s (s.acquireCalled.raise .sourceUnavailable)
  | initInSession {km dp kf} (hd : decode c = .instr (.init km dp kf)) (hs : s.sess = .opened ∨ s.sess = .failed) :
      Answered c s (s.raise .illegalState)
  | pollClosed (hd : decode c = .instr .poll) (hs : s.sess = .closed) : Answered c s (s.raise .illegalState)
  | pollFailed (hd : decode c = .instr .poll) (hs : s.sess = .failed) : Answered c s (s.raise .sourceUnavailable)
  | pollReadFails (hd : decode c = .instr .poll) (hs : s.sess = .opened) (hr : s.nextRead = .fail) :
      Answered c s ((s.readCalled.setSess .failed).raise .sourceUnavailable)
  | pollNoFrame {w why} (hd : decode c = .instr .poll) (hs : s.sess = .opened) (hr : s.nextRead = .bytes w)
      (hl : w.length ≤ s.config.readLen) (hf : frameSearch w = .noFrame why) :
      Answered c s (s.readCalled.respond (unavailableResponse why))
  | pollReading {w f} (hd : decode c = .instr .poll) (hs : s.sess = .opened) (hr : s.nextRead = .bytes w)
      (hl : w.length ≤ s.config.readLen) (hf : frameSearch w = .frame f) :
      Answered c s (s.readCalled.respond (readingOf s.config.voutTie s.cfg f))
  | releaseClosed (hd : decode c = .instr .release) (hs : s.sess = .closed) : Answered c s (s.respond okResponse)
  | releaseSession (hd : decode c = .instr .release) (hs : s.sess = .opened ∨ s.sess = .failed) : Answered c s (tearDown s)

variable {c : Word} {s t : State} {es : List Event}

theorem perform_of_illegal {why : IllegalWord} (hd : decode c = .illegal why) : perform c s = illegalCommand s := by
  simp [perform, hd]

theorem perform_of_instr {i : Instr} (hd : decode c = .instr i) : perform c s = exec i s := by
  simp [perform, hd]

theorem exec_init (km : KMode) (dp : DPol) (kf : BitVec 32) (s : State) :
    exec (.init km dp kf) s = execInit km dp kf s := rfl

theorem exec_poll (s : State) : exec .poll s = execPoll s := rfl

theorem exec_release (s : State) : exec .release s = execRelease s := rfl

/-- Every answer of a command is one of the rows. -/
theorem answered_of_perform (h : perform c s = .next t) : Answered c s t := by
  cases hd : decode c with
  | illegal why =>
    rw [perform_of_illegal hd] at h
    rcases illegalCommand_cases s with ⟨hs, e⟩ | ⟨_, e⟩ <;> rw [e] at h <;> cases h
    exact .illegal hd hs
  | instr i =>
    rw [perform_of_instr hd] at h
    cases i with
    | init km dp kf =>
      rw [exec_init] at h
      rcases execInit_cases km dp kf s with ⟨hs, ha, e⟩ | ⟨hs, ha, e⟩ | ⟨hs, e⟩ | ⟨_, e⟩ <;> rw [e] at h <;> cases h
      · exact .initOpens hd hs ha
      · exact .initFails hd hs ha
      · exact .initInSession hd hs
    | poll =>
      rw [exec_poll] at h
      rcases execPoll_cases s with ⟨hs, e⟩ | ⟨hs, e⟩ | ⟨hs, hr, e⟩ | ⟨_, _, _, _, e⟩ | ⟨w, why, hs, hr, hl, hf, e⟩ |
        ⟨w, f, hs, hr, hl, hf, e⟩ | ⟨_, e⟩ <;> rw [e] at h <;> cases h
      · exact .pollClosed hd hs
      · exact .pollFailed hd hs
      · exact .pollReadFails hd hs hr
      · exact .pollNoFrame hd hs hr hl hf
      · exact .pollReading hd hs hr hl hf
    | release =>
      rw [exec_release] at h
      rcases execRelease_cases s with ⟨hs, e⟩ | ⟨hs, e⟩ | ⟨_, e⟩ <;> rw [e] at h <;> cases h
      · exact .releaseClosed hd hs
      · exact .releaseSession hd hs

/-- Every row is an answer the command gives. -/
theorem Answered.perform_eq (h : Answered c s t) : perform c s = .next t := by
  cases h with
  | illegal hd hs =>
    rw [perform_of_illegal hd]
    exact ((illegalCommand_cases s).resolve_right fun h => hs h.1).2
  | initOpens hd hs ha => simp [perform_of_instr hd, exec_init, execInit, State.bySession, hs, ha]
  | initFails hd hs ha => simp [perform_of_instr hd, exec_init, execInit, State.bySession, hs, ha]
  | initInSession hd hs =>
    rcases hs with hs | hs <;> simp [perform_of_instr hd, exec_init, execInit, State.bySession, hs]
  | pollClosed hd hs => simp [perform_of_instr hd, exec_poll, execPoll, State.bySession, hs]
  | pollFailed hd hs => simp [perform_of_instr hd, exec_poll, execPoll, State.bySession, hs]
  | pollReadFails hd hs hr => simp [perform_of_instr hd, exec_poll, execPoll, State.bySession, pollOpened, hs, hr]
  | pollNoFrame hd hs hr hl hf =>
    simp [perform_of_instr hd, exec_poll, execPoll, State.bySession, pollOpened, pollWindow, hs, hr, hl.not_gt, hf]
  | pollReading hd hs hr hl hf =>
    simp [perform_of_instr hd, exec_poll, execPoll, State.bySession, pollOpened, pollWindow, State.readCfg, hs, hr,
      hl.not_gt, hf]
  | releaseClosed hd hs => simp [perform_of_instr hd, exec_release, execRelease, State.bySession, hs]
  | releaseSession hd hs =>
    rcases hs with hs | hs <;> simp [perform_of_instr hd, exec_release, execRelease, State.bySession, hs]

theorem step_of_idle (h : s.pending = []) : step s = .next s := by
  simp [step, stepEvent, h]

theorem step_of_command (h : s.pending = .command c :: es) : step s = perform c (s.withPending es) := by
  simp [step, stepEvent, h, meet]

theorem step_of_reset (h : s.pending = .reset :: es) : step s = .next (s.withPending es).hardReset := by
  simp [step, stepEvent, h, meet]

theorem step_of_resetDuring (h : s.pending = .resetDuring c :: es) :
    step s = .next (abandon c (s.withPending es)).hardReset := by
  simp [step, stepEvent, h, meet]

/-- What a step that goes on has done: idled, answered a command, or been reset. -/
theorem step_next_cases (h : step s = .next t) :
    (s.pending = [] ∧ t = s) ∨
    (∃ c es, s.pending = .command c :: es ∧ Answered c (s.withPending es) t) ∨
    (∃ es, s.pending = .reset :: es ∧ t = (s.withPending es).hardReset) ∨
    (∃ c es, s.pending = .resetDuring c :: es ∧ t = (abandon c (s.withPending es)).hardReset) := by
  rcases step_cases s with ⟨hp, e⟩ | ⟨c, es, hp, e⟩ | ⟨_, _, _, _, e⟩ | ⟨es, hp, e⟩ | ⟨c, es, hp, e⟩ <;> rw [e] at h
  · cases h; exact .inl ⟨hp, rfl⟩
  · exact .inr (.inl ⟨c, es, hp, answered_of_perform h⟩)
  · cases h
  · cases h; exact .inr (.inr (.inl ⟨es, hp, rfl⟩))
  · cases h; exact .inr (.inr (.inr ⟨c, es, hp, rfl⟩))

/-! ## Well-formed responses (R66 to R68) -/

theorem blank_wellFormed {st : Status} {reason : Option NoFrame} (h : reason.isSome = true ↔ st = .unavailable) :
    (Response.blank st reason).WellFormed where
  zero_unless_reading _ := ⟨rfl, rfl, rfl, rfl⟩
  reason_iff_unavailable := h
  vout_in_range := by simp [Response.blank]
  density_precise _ := by simp [Response.blank]
  density_trunc _ := by simp [Response.blank]

theorem okResponse_wellFormed : okResponse.WellFormed := blank_wellFormed (by decide)

theorem raiseResponse_wellFormed {st : Status} (h : st ≠ .unavailable) : (raiseResponse st).WellFormed :=
  blank_wellFormed (by simp [h])

theorem unavailableResponse_wellFormed (why : NoFrame) : (unavailableResponse why).WellFormed := blank_wellFormed (by simp)

/-- A 22-bit VOUT_Q in its 32-bit field is the same number. -/
theorem vout_field_toNat (v : BitVec 22) : (v.setWidth 32).toNat = v.toNat := by
  have := v.isLt
  rw [BitVec.toNat_setWidth]; omega

/-- A reading is well formed under either tie rule: the density product fits its field (R127). -/
theorem readingOf_wellFormed (tie : Tie) (c : Cfg) (f : Frame) : (readingOf tie c f).WellFormed where
  zero_unless_reading h := absurd rfl h
  reason_iff_unavailable := by simp [readingOf, readingResponse]
  vout_in_range := by
    simp only [readingOf, readingResponse, vout_field_toNat]
    exact voutOfRaw_le tie (rawOf f)
  density_precise h := by
    have hd : c.dpol = .precise := h
    simp only [readingOf, readingResponse, vout_field_toNat, hd]
    exact product_toNat _ _
  density_trunc h := by
    have hd : c.dpol = .trunc := h
    simp only [readingOf, readingResponse, vout_field_toNat, hd, density_trunc_toNat, product_toNat]

/-! ## The invariant (R35(a), R35(c), R66, R10) -/

@[simp] theorem handleCount_cons (call : SourceCall) (calls : List SourceCall) :
    handleCount (call :: calls) = call.handleChange + handleCount calls := by
  simp [handleCount]

@[simp] theorem handleChange_acquire_ok : (SourceCall.acquire .ok).handleChange = 1 := rfl
@[simp] theorem handleChange_acquire_fail : (SourceCall.acquire .fail).handleChange = 0 := rfl
@[simp] theorem handleChange_read (n : Nat) (a : ReadAnswer) : (SourceCall.read n a).handleChange = 0 := rfl
@[simp] theorem handleChange_release : SourceCall.release.handleChange = -1 := rfl

theorem State.Inv.handleCount_of_closed (h : s.Inv) (hs : s.sess = .closed) : handleCount s.sourceCalls = 0 := by
  simpa [hs] using h.handle_balance

theorem State.Inv.handleCount_of_session (h : s.Inv) (hs : s.sess ≠ .closed) : handleCount s.sourceCalls = 1 := by
  simpa [hs] using h.handle_balance

/-- Nothing but SESS, the parameters, the handle count and the responses enters the invariant. -/
theorem State.Inv.congr (h : s.Inv) (hsess : t.sess = s.sess) (hconfig : t.config = s.config)
    (hcalls : handleCount t.sourceCalls = handleCount s.sourceCalls) (hresponses : t.responses = s.responses) : t.Inv where
  sess_assigned := hsess ▸ h.sess_assigned
  config_wf := hconfig ▸ h.config_wf
  handle_balance := by rw [hcalls, hsess, h.handle_balance]
  responses_wf := hresponses ▸ h.responses_wf

/-- An answer keeps the invariant when its response is well formed and the handle count fits the session state it leaves. -/
theorem State.Inv.answer {r : Response} (h : s.Inv) (hr : r.WellFormed) (hresponses : t.responses = r :: s.responses)
    (hconfig : t.config = s.config) (hsess : t.sess ≠ .unassigned)
    (hcalls : handleCount t.sourceCalls = if t.sess = .closed then 0 else 1) : t.Inv where
  sess_assigned := hsess
  config_wf := hconfig ▸ h.config_wf
  handle_balance := hcalls
  responses_wf := by
    rw [hresponses, List.forall_mem_cons]
    exact ⟨hr, h.responses_wf⟩

theorem State.Inv.respond {r : Response} (h : s.Inv) (hr : r.WellFormed) : (s.respond r).Inv :=
  h.answer hr rfl rfl h.sess_assigned h.handle_balance

theorem State.Inv.raise {st : Status} (h : s.Inv) (hst : st ≠ .unavailable) : (s.raise st).Inv :=
  h.respond (raiseResponse_wellFormed hst)

theorem State.Inv.withPending (h : s.Inv) (es : List Event) : (s.withPending es).Inv := h.congr rfl rfl rfl rfl

theorem State.Inv.readCalled (h : s.Inv) : s.readCalled.Inv := h.congr rfl rfl (by simp) rfl

/-- A reset gives back the handle of a session, if there is one (R191). -/
theorem State.Inv.hardReset (h : s.Inv) : s.hardReset.Inv where
  sess_assigned := by simp
  config_wf := by simpa using h.config_wf
  handle_balance := by
    by_cases hs : s.sess = .closed
    · simp [giveBack_sourceCalls, hs, h.handleCount_of_closed hs]
    · simp [giveBack_sourceCalls, hs, h.handleCount_of_session hs]
  responses_wf := by simpa using h.responses_wf

theorem State.Inv.abandon (h : s.Inv) (c : Word) : (abandon c s).Inv := by
  rcases abandon_cases c s with e | ⟨_, e⟩ | ⟨_, _, e⟩ <;> rw [e]
  · exact h
  · exact h.congr rfl rfl rfl rfl
  · exact h.readCalled

/-- A teardown gives the one handle back (R151). -/
theorem State.Inv.tearDown (h : s.Inv) (hs : s.sess ≠ .closed) : (tearDown s).Inv :=
  h.answer okResponse_wellFormed rfl rfl (by simp [Machine.tearDown])
    (by simp [Machine.tearDown, h.handleCount_of_session hs])

/-- Each row of the transition table keeps the invariant. -/
theorem Answered.keeps_inv (h : Answered c s t) (hi : s.Inv) : t.Inv := by
  cases h with
  | illegal => exact hi.raise (by decide)
  | initOpens _ hs ha => exact hi.answer okResponse_wellFormed rfl rfl (by simp) (by simp [ha, hi.handleCount_of_closed hs])
  | initFails _ hs ha =>
    exact hi.answer (raiseResponse_wellFormed (by decide)) rfl rfl (by simp [hs]) (by simp [ha, hs, hi.handleCount_of_closed hs])
  | initInSession => exact hi.raise (by decide)
  | pollClosed => exact hi.raise (by decide)
  | pollFailed => exact hi.raise (by decide)
  | pollReadFails _ hs =>
    exact hi.answer (raiseResponse_wellFormed (by decide)) rfl rfl (by simp)
      (by simp [hi.handleCount_of_session (by simp [hs])])
  | pollNoFrame => exact hi.readCalled.respond (unavailableResponse_wellFormed _)
  | pollReading => exact hi.readCalled.respond (readingOf_wellFormed _ _ _)
  | releaseClosed => exact hi.respond okResponse_wellFormed
  | releaseSession _ hs => exact hi.tearDown (by rcases hs with hs | hs <;> simp [hs])

/-- Settles O33: `State.Inv` is inductive as it stands, each row of the transition table and each reset keeping it. -/
theorem everyStepKeepsTheInvariant : Obligations.EveryStepKeepsTheInvariant := by
  intro s t hi h
  rcases step_next_cases h with ⟨_, rfl⟩ | ⟨c, es, _, ha⟩ | ⟨es, _, rfl⟩ | ⟨c, es, _, rfl⟩
  · exact hi
  · exact ha.keeps_inv (hi.withPending es)
  · exact (hi.withPending es).hardReset
  · exact ((hi.withPending es).abandon c).hardReset

/-! ## CFG within a session (R35(b), R196) -/

/-- Of the rows of the transition table, only those that open or close a session write CFG. -/
theorem Answered.cfg_eq (h : Answered c s t) (hs : s.sess ≠ .closed) (ht : t.sess ≠ .closed) : t.cfg = s.cfg := by
  cases h with
  | initOpens _ hc => exact absurd hc hs
  | releaseSession => exact absurd rfl ht
  | illegal | initFails | initInSession | pollClosed | pollFailed | pollReadFails | pollNoFrame | pollReading |
    releaseClosed => rfl

/-- Settles O38: a command that keeps the session keeps CFG, and a reset ends the session. -/
theorem cfgIsFixedWithinASession : Obligations.CfgIsFixedWithinASession := by
  intro s t h hs ht
  rcases step_next_cases h with ⟨_, rfl⟩ | ⟨c, es, _, ha⟩ | ⟨es, _, rfl⟩ | ⟨c, es, _, rfl⟩
  · rfl
  · exact ha.cfg_eq hs ht
  · exact absurd rfl ht
  · exact absurd rfl ht

/-! ## The records of responses and source calls (R31, R33, R34) -/

/-- `s` with other records of what the block has answered and called. -/
def State.withRecords (s : State) (rs : List Response) (cs : List SourceCall) : State :=
  { s with responses := rs, sourceCalls := cs }

/-- `R`, which takes `s` to `t`, adds to the records of `s` and does not read them: whatever they are, it adds the same and
does all else alike. -/
def AddsToRecords (R : State → State → Prop) (s t : State) : Prop :=
  ∃ (rs' : List Response) (cs' : List SourceCall), t.responses = rs' ++ s.responses ∧ t.sourceCalls = cs' ++ s.sourceCalls ∧
    ∀ rs cs, R (s.withRecords rs cs) (t.withRecords (rs' ++ rs) (cs' ++ cs))

/-- One after the other, two operations that add to the records add what both add. -/
theorem AddsToRecords.comp {R R' : State → State → Prop} {u : State} (h : AddsToRecords R s u) (h' : AddsToRecords R' u t) :
    AddsToRecords (Relation.Comp R R') s t := by
  obtain ⟨rs₁, cs₁, hr₁, hc₁, step₁⟩ := h
  obtain ⟨rs₂, cs₂, hr₂, hc₂, step₂⟩ := h'
  refine ⟨rs₂ ++ rs₁, cs₂ ++ cs₁, by rw [hr₂, hr₁, List.append_assoc], by rw [hc₂, hc₁, List.append_assoc],
    fun rs cs => ⟨_, step₁ rs cs, ?_⟩⟩
  rw [List.append_assoc, List.append_assoc]
  exact step₂ _ _

/-- Each row of the transition table, with the response and the source call it adds. -/
theorem Answered.addsToRecords (h : Answered c s t) : AddsToRecords (Answered c) s t := by
  cases h with
  | illegal hd hs => exact ⟨[_], [], rfl, rfl, fun _ _ => .illegal hd hs⟩
  | initOpens hd hs ha => exact ⟨[_], [_], rfl, rfl, fun _ _ => .initOpens hd hs ha⟩
  | initFails hd hs ha => exact ⟨[_], [_], rfl, rfl, fun _ _ => .initFails hd hs ha⟩
  | initInSession hd hs => exact ⟨[_], [], rfl, rfl, fun _ _ => .initInSession hd hs⟩
  | pollClosed hd hs => exact ⟨[_], [], rfl, rfl, fun _ _ => .pollClosed hd hs⟩
  | pollFailed hd hs => exact ⟨[_], [], rfl, rfl, fun _ _ => .pollFailed hd hs⟩
  | pollReadFails hd hs hr => exact ⟨[_], [_], rfl, rfl, fun _ _ => .pollReadFails hd hs hr⟩
  | pollNoFrame hd hs hr hl hf => exact ⟨[_], [_], rfl, rfl, fun _ _ => .pollNoFrame hd hs hr hl hf⟩
  | pollReading hd hs hr hl hf => exact ⟨[_], [_], rfl, rfl, fun _ _ => .pollReading hd hs hr hl hf⟩
  | releaseClosed hd hs => exact ⟨[_], [], rfl, rfl, fun _ _ => .releaseClosed hd hs⟩
  | releaseSession hd hs => exact ⟨[_], [_], rfl, rfl, fun _ _ => .releaseSession hd hs⟩

/-- A reset adds no response, and the one release of a held handle. -/
theorem hardReset_addsToRecords (s : State) : AddsToRecords (fun s t => s.hardReset = t) s s.hardReset := by
  by_cases hs : s.sess = .closed
  · exact ⟨[], [], by simp, by simp [giveBack_sourceCalls, hs], fun _ _ => by
      simp [State.hardReset, State.giveBack, State.withRecords, hs]⟩
  · exact ⟨[], [.release], by simp, by simp [giveBack_sourceCalls, hs], fun _ _ => by
      simp [State.hardReset, State.giveBack, State.releaseCalled, State.withRecords, hs]⟩

/-- An abandoned POLL adds no response, and at most its read. -/
theorem abandonPoll_addsToRecords (s : State) : AddsToRecords (fun s t => s.abandonPoll = t) s s.abandonPoll := by
  by_cases hc : s.sess = .opened ∧ Config.freeConsumed s.draws = true
  · have e : s.abandonPoll = s.readCalled := if_pos hc
    rw [e]
    exact ⟨[], [_], rfl, rfl, fun _ _ => if_pos hc⟩
  · have e : s.abandonPoll = { s with draws := s.draws + 1 } := if_neg hc
    rw [e]
    exact ⟨[], [], rfl, rfl, fun _ _ => if_neg hc⟩

theorem abandon_addsToRecords (c : Word) (s : State) : AddsToRecords (fun s t => abandon c s = t) s (abandon c s) := by
  unfold abandon
  split
  · exact abandonPoll_addsToRecords s
  all_goals exact ⟨[], [], rfl, rfl, fun _ _ => rfl⟩

theorem step_addsToRecords (h : step s = .next t) : AddsToRecords (fun s t => step s = .next t) s t := by
  rcases step_next_cases h with ⟨hp, rfl⟩ | ⟨c, es, hp, ha⟩ | ⟨es, hp, rfl⟩ | ⟨c, es, hp, rfl⟩
  · exact ⟨[], [], rfl, rfl, fun rs cs => step_of_idle (s := t.withRecords rs cs) hp⟩
  · obtain ⟨rs', cs', hr, hc, ha'⟩ := ha.addsToRecords
    exact ⟨rs', cs', hr, hc, fun rs cs => (step_of_command (s := s.withRecords rs cs) hp).trans (ha' rs cs).perform_eq⟩
  · obtain ⟨rs', cs', hr, hc, e⟩ := hardReset_addsToRecords (s.withPending es)
    exact ⟨rs', cs', hr, hc, fun rs cs => (step_of_reset (s := s.withRecords rs cs) hp).trans (congrArg _ (e rs cs))⟩
  · obtain ⟨rs', cs', hr, hc, e⟩ := (abandon_addsToRecords c (s.withPending es)).comp (hardReset_addsToRecords _)
    refine ⟨rs', cs', hr, hc, fun rs cs => (step_of_resetDuring (s := s.withRecords rs cs) hp).trans (congrArg _ ?_)⟩
    obtain ⟨_, rfl, hreset⟩ := e rs cs
    exact hreset

/-- Settles O40: every row of the transition table and every reset puts its response and its source calls before what the
records hold, and tests nothing of them. -/
theorem recordsAreNeverReadBack : Obligations.RecordsAreNeverReadBack := by
  intro s t rs cs h
  obtain ⟨rs', cs', hr, hc, e⟩ := step_addsToRecords h
  exact ⟨rs', cs', hr, hc, e rs cs⟩

/-! ## CFG while CLOSED (R29, R178(d)) -/

theorem readCfg_of_closed (hs : s.sess = .closed) : s.readCfg = .error .cfgUnspecified := if_pos hs

/-- `t'` is `t`, or `t` with CFG replaced by `k` where CFG is unspecified. -/
def SameButUnspecifiedCfg (k : Cfg) (t t' : State) : Prop := t' = t ∨ (t.sess = .closed ∧ t' = t.setCfg k)

/-- From CLOSED each row of the transition table is taken whatever CFG holds. -/
theorem Answered.ignores_unspecified_cfg (h : Answered c s t) (hs : s.sess = .closed) (k : Cfg) :
    ∃ t', Answered c (s.setCfg k) t' ∧ SameButUnspecifiedCfg k t t' := by
  cases h with
  | illegal hd hu => exact ⟨_, .illegal hd hu, .inr ⟨hs, rfl⟩⟩
  | initOpens hd _ ha => exact ⟨_, .initOpens hd hs ha, .inl rfl⟩
  | initFails hd _ ha => exact ⟨_, .initFails hd hs ha, .inr ⟨hs, rfl⟩⟩
  | pollClosed hd => exact ⟨_, .pollClosed hd hs, .inr ⟨hs, rfl⟩⟩
  | releaseClosed hd => exact ⟨_, .releaseClosed hd hs, .inr ⟨hs, rfl⟩⟩
  | initInSession _ hs' | releaseSession _ hs' => simp [hs] at hs'
  | pollFailed _ hs' | pollReadFails _ hs' | pollNoFrame _ hs' | pollReading _ hs' => simp [hs] at hs'

theorem hardReset_setCfg (s : State) (k : Cfg) : (s.setCfg k).hardReset = s.hardReset := by
  by_cases hs : s.sess = .closed <;> simp [State.hardReset, State.giveBack, State.releaseCalled, State.setCfg, hs]

theorem abandonPoll_setCfg (s : State) (k : Cfg) : (s.setCfg k).abandonPoll = s.abandonPoll.setCfg k := by
  unfold State.abandonPoll
  rw [apply_ite (State.setCfg · k)]
  rfl

theorem abandon_setCfg (c : Word) (s : State) (k : Cfg) : abandon c (s.setCfg k) = (abandon c s).setCfg k := by
  unfold abandon
  split
  · exact abandonPoll_setCfg s k
  all_goals rfl

theorem step_ignores_unspecified_cfg (h : step s = .next t) (hs : s.sess = .closed) (k : Cfg) :
    ∃ t', step (s.setCfg k) = .next t' ∧ SameButUnspecifiedCfg k t t' := by
  rcases step_next_cases h with ⟨hp, rfl⟩ | ⟨c, es, hp, ha⟩ | ⟨es, hp, rfl⟩ | ⟨c, es, hp, rfl⟩
  · exact ⟨_, step_of_idle (s := t.setCfg k) hp, .inr ⟨hs, rfl⟩⟩
  · obtain ⟨t', ha', hsame⟩ := ha.ignores_unspecified_cfg hs k
    exact ⟨t', (step_of_command (s := s.setCfg k) hp).trans ha'.perform_eq, hsame⟩
  · exact ⟨_, step_of_reset (s := s.setCfg k) hp, .inl (hardReset_setCfg (s.withPending es) k)⟩
  · have e : (abandon c ((s.withPending es).setCfg k)).hardReset = (abandon c (s.withPending es)).hardReset := by
      rw [abandon_setCfg, hardReset_setCfg]
    exact ⟨_, step_of_resetDuring (s := s.setCfg k) hp, .inl e⟩

/-- Settles O41: the next state with another CFG is the same, or differs in CFG alone with SESS still CLOSED. -/
theorem unspecifiedCfgIsNeverSeen : Obligations.UnspecifiedCfgIsNeverSeen := by
  intro s t k hs h
  obtain ⟨t', h', rfl | ⟨ht, rfl⟩⟩ := step_ignores_unspecified_cfg h hs k
  · exact ⟨readCfg_of_closed hs, _, h', rfl, rfl, rfl, rfl, fun _ => rfl⟩
  · exact ⟨readCfg_of_closed hs, _, h', rfl, rfl, rfl, rfl, fun hopen => absurd ht hopen⟩

/-! ## The stepped-K ROM (R30) -/

/-- Settles O27: the table is read off, and its 13 entries are checked one by one. -/
theorem romHoldsTheTable : Obligations.RomHoldsTheTable :=
  ⟨rfl, rfl, by decide, by decide⟩

end Sys2Proof.Machine

/-! Family 20_memory: what POLL and every command refuse (R42, R178). -/

namespace Sys2Proof.Machine

variable {s : State}

theorem bySession_of_opened (hs : s.sess = .opened) (closed opened failed : Outcome) :
    s.bySession closed opened failed = opened := by
  simp [State.bySession, hs]

theorem bySession_of_unassigned (hs : s.sess = .unassigned) (closed opened failed : Outcome) :
    s.bySession closed opened failed = .refused .sessUnassigned := by
  simp [State.bySession, hs]

/-- R178(c): whatever the command, SESS = 3 is refused. -/
theorem exec_of_unassigned (i : Instr) (hs : s.sess = .unassigned) : exec i s = .refused .sessUnassigned := by
  cases i with
  | init km dp kf => exact bySession_of_unassigned hs _ _ _
  | poll => exact bySession_of_unassigned hs _ _ _
  | release => exact bySession_of_unassigned hs _ _ _

/-- R42: an answer longer than READ_LEN is refused, and not cut to it. -/
theorem pollOpened_of_tooLong {w : Window} (hr : s.nextRead = .bytes w) (hl : s.config.readLen < w.length) :
    pollOpened s = .refused .answerTooLong := by
  simp [pollOpened, hr, hl]

/-- Settles O16: in OPEN a POLL is its read, which refuses what is too long, and no command has an arm for SESS = 3. -/
theorem commandsRefuseWhatHasNoMeaning : Obligations.CommandsRefuseWhatHasNoMeaning := by
  refine ⟨fun s w hs hr hl => ?_, fun _ i hs => exec_of_unassigned i hs⟩
  calc exec .poll s
    _ = pollOpened s := bySession_of_opened hs _ _ _
    _ = .refused .answerTooLong := pollOpened_of_tooLong hr hl

end Sys2Proof.Machine

/-! Family 30_encoding: the decoder and the encoder, INIT's fields in CFG, a reading in exact decimals, the codes and the
assembler. -/

namespace Sys2Proof.Machine

variable {c : Word} {s t : State}

/-! ## Which words decode to which command (R62 to R64, R69, R72) -/

theorem decode_of_initRow (h : c &&& 0xFFFF00000000FCFF#64 = 0x0000000000000001#64) :
    decode c = .instr (.init (kmodeField c) (dpolField c) (kfixField c)) := by
  obtain ⟨hopc, h0, h1⟩ := (initRow_iff c).1 h
  rcases decode_cases c with ⟨-, -, -, e⟩ | ⟨rfl, -⟩ | ⟨rfl, -⟩ | ⟨hill, -⟩
  · exact e
  · exact absurd hopc (by decide)
  · exact absurd hopc (by decide)
  · unfold IllegalNumber at hill; omega

/-- A word of INIT's row has no bits but its OPC and its three fields. -/
theorem encode_init_fields (h : c &&& 0xFFFF00000000FCFF#64 = 0x0000000000000001#64) :
    encode (.init (kmodeField c) (dpolField c) (kfixField c)) = c := by
  obtain ⟨hopc, h0, h1⟩ := (initRow_iff c).1 h
  have hc := c.isLt
  rw [← BitVec.toNat_inj, encode_init_toNat, kmodeField, dpolField, kfixField, KMode.bit_ofBit, DPol.bit_ofBit,
    field_toNat, field_toNat, field_toNat]
  omega

theorem encode_of_decode {i : Instr} (h : decode c = .instr i) : encode i = c := by
  rcases decode_cases c with ⟨hopc, h0, h1, e⟩ | ⟨hc, e⟩ | ⟨hc, e⟩ | ⟨-, why, e⟩ <;> rw [e] at h <;> cases h
  · exact encode_init_fields ((initRow_iff c).2 ⟨hopc, h0, h1⟩)
  · exact hc.symm
  · exact hc.symm

theorem exists_decode_init_iff (c : Word) :
    (∃ km dp kf, decode c = .instr (.init km dp kf)) ↔ c &&& 0xFFFF00000000FCFF#64 = 0x0000000000000001#64 :=
  ⟨fun ⟨km, dp, kf, h⟩ => encode_of_decode h ▸ Laws.OpcodeRow.init km dp kf, fun h => ⟨_, _, _, decode_of_initRow h⟩⟩

theorem decode_poll_iff (c : Word) : decode c = .instr .poll ↔ c = 2#64 :=
  ⟨fun h => (encode_of_decode h).symm, by rintro rfl; decide⟩

theorem decode_release_iff (c : Word) : decode c = .instr .release ↔ c = 3#64 :=
  ⟨fun h => (encode_of_decode h).symm, by rintro rfl; decide⟩

theorem exists_decode_illegal_iff (c : Word) : (∃ why, decode c = .illegal why) ↔ IllegalNumber c.toNat := by
  rcases decode_cases c with ⟨hopc, h0, h1, e⟩ | ⟨rfl, e⟩ | ⟨rfl, e⟩ | ⟨hill, hwhy⟩
  · have : ¬ IllegalNumber c.toNat := by unfold IllegalNumber; omega
    simp [e, this]
  · have : ¬ IllegalNumber (2#64).toNat := by unfold IllegalNumber; decide
    simp only [e, this, reduceCtorEq, exists_false]
  · have : ¬ IllegalNumber (3#64).toNat := by unfold IllegalNumber; decide
    simp only [e, this, reduceCtorEq, exists_false]
  · exact iff_of_true hwhy hill

/-- Settles O4: POLL's and RELEASE's rows hold one word each, and INIT's is its three fixed fields. -/
theorem legalWordsAreTheMatchAndMaskRows : Obligations.LegalWordsAreTheMatchAndMaskRows := by
  intro c
  have hall : c &&& 0xFFFFFFFFFFFFFFFF#64 = c := BitVec.and_allOnes
  rw [hall]
  exact ⟨exists_decode_init_iff c, decode_poll_iff c, decode_release_iff c⟩

/-- Settles O5: the decoder's branches, one by one, against R60's reserved bits as numbers. -/
theorem illegalWordsAreExactlyThoseNamed : Obligations.IllegalWordsAreExactlyThoseNamed :=
  exists_decode_illegal_iff

/-! ## The round trip (R72) -/

theorem kmodeField_encode_init (km : KMode) (dp : DPol) (kf : BitVec 32) : kmodeField (encode (.init km dp kf)) = km := by
  have hbit : field (encode (.init km dp kf)) 8 1 = km.bit := by
    have := km.bit.isLt
    have := dp.bit.isLt
    rw [← BitVec.toNat_inj, field_toNat, encode_init_toNat]; omega
  rw [kmodeField, hbit, KMode.ofBit_bit]

theorem dpolField_encode_init (km : KMode) (dp : DPol) (kf : BitVec 32) : dpolField (encode (.init km dp kf)) = dp := by
  have hbit : field (encode (.init km dp kf)) 9 1 = dp.bit := by
    have := km.bit.isLt
    have := dp.bit.isLt
    rw [← BitVec.toNat_inj, field_toNat, encode_init_toNat]; omega
  rw [dpolField, hbit, DPol.ofBit_bit]

theorem kfixField_encode_init (km : KMode) (dp : DPol) (kf : BitVec 32) : kfixField (encode (.init km dp kf)) = kf := by
  have := km.bit.isLt
  have := dp.bit.isLt
  have := kf.isLt
  rw [← BitVec.toNat_inj, kfixField, field_toNat, encode_init_toNat]; omega

/-- Settles O2: an encoded INIT lies in INIT's row, and each of its fields reads back what was encoded. -/
theorem decodeOfEncodeIsTheCommand : Obligations.DecodeOfEncodeIsTheCommand := by
  intro i _
  cases i with
  | init km dp kf =>
    rw [decode_of_initRow (Laws.OpcodeRow.init km dp kf), kmodeField_encode_init, dpolField_encode_init,
      kfixField_encode_init]
  | poll => exact (decode_poll_iff _).2 rfl
  | release => exact (decode_release_iff _).2 rfl

/-- Settles O3: a legal word is POLL's, RELEASE's, or a word of INIT's row, whose other bits are 0. -/
theorem encodeOfDecodeIsTheWord : Obligations.EncodeOfDecodeIsTheWord :=
  fun _ _ h => encode_of_decode h

/-! ## INIT's fields in CFG (R62) -/

theorem kmode_ofBit_eq (b : BitVec 1) : KMode.ofBit b = if b.toNat = 1 then .fixed else .stepped := by
  revert b; decide

theorem dpol_ofBit_eq (b : BitVec 1) : DPol.ofBit b = if b.toNat = 1 then .precise else .trunc := by
  revert b; decide

theorem kmodeField_eq (c : Word) : kmodeField c = if c.toNat / 2 ^ 8 % 2 = 1 then .fixed else .stepped := by
  rw [kmodeField, kmode_ofBit_eq, field_toNat, pow_one]

theorem dpolField_eq (c : Word) : dpolField c = if c.toNat / 2 ^ 9 % 2 = 1 then .precise else .trunc := by
  rw [dpolField, dpol_ofBit_eq, field_toNat, pow_one]

/-- Settles O6: a word of INIT's row decodes to INIT with its three fields, which the opening row of R154's table writes to
CFG. -/
theorem initWordFieldsReachCfg : Obligations.InitWordFieldsReachCfg := by
  refine ⟨fun c => ⟨exists_decode_init_iff c, initRow_iff c⟩, fun s c es hp hrow hs ha => ?_⟩
  have opens := Answered.initOpens (s := s.withPending es) (decode_of_initRow hrow) hs ha
  exact ⟨_, (step_of_command hp).trans opens.perform_eq, rfl, kmodeField_eq c, dpolField_eq c, field_toNat c 16 32⟩

/-! ## KFIX under the stepped strategy (R70, R27) -/

/-- `s` with another CFG_KFIX. -/
def State.withKfix (s : State) (k : BitVec 32) : State := { s with cfg := { s.cfg with kfix := k } }

theorem readingOf_withKfix_of_stepped {cfg : Cfg} (hk : cfg.kmode = .stepped) (tie : Tie) (f : Frame) (k : BitVec 32) :
    readingOf tie { cfg with kfix := k } f = readingOf tie cfg f := by
  simp only [readingOf, coeff, hk]

/-- Each row of the transition table that a POLL takes is taken alike with another CFG_KFIX. -/
theorem Answered.withKfix_of_poll (h : Answered c s t) (hpoll : decode c = .instr .poll) (hk : s.cfg.kmode = .stepped)
    (k : BitVec 32) : Answered c (s.withKfix k) (t.withKfix k) := by
  cases h with
  | pollClosed hd hs => exact .pollClosed hd hs
  | pollFailed hd hs => exact .pollFailed hd hs
  | pollReadFails hd hs hr => exact .pollReadFails hd hs hr
  | pollNoFrame hd hs hr hl hf => exact .pollNoFrame hd hs hr hl hf
  | pollReading hd hs hr hl hf =>
    rw [← readingOf_withKfix_of_stepped hk _ _ k]
    exact .pollReading (s := s.withKfix k) hd hs hr hl hf
  | illegal hd | initOpens hd | initFails hd | initInSession hd | releaseClosed hd | releaseSession hd =>
    simp [hpoll] at hd

theorem perform_encode_poll (s : State) : perform (encode .poll) s = exec .poll s :=
  perform_of_instr ((decode_poll_iff _).2 rfl)

theorem answered_of_exec_poll (h : exec .poll s = .next t) : Answered (encode .poll) s t :=
  answered_of_perform ((perform_encode_poll s).trans h)

/-- Settles O18: of POLL's rows only a reading reads CFG, and the stepped coefficient does not read CFG_KFIX. -/
theorem steppedModeIgnoresKfix : Obligations.SteppedModeIgnoresKfix := by
  intro s t k hk h
  have hpoll := (decode_poll_iff (encode .poll)).2 rfl
  have h' := (answered_of_exec_poll h).withKfix_of_poll hpoll hk k
  exact (perform_encode_poll _).symm.trans h'.perform_eq

/-! ## A reading in exact decimals (R66, R101, R102, R107, R130) -/

/-- R88: what stands before the first START and after the frame is discarded. -/
theorem frameSearch_append (pre post : Window) (f : Frame) (hpre : startByte ∉ pre) (hstart : f.start = startByte) :
    frameSearch (pre ++ f.bytes ++ post) = .frame f := by
  have hw : pre ++ f.bytes ++ post = pre ++ startByte :: ([f.b1, f.b2, f.b3, f.b4, f.b5, f.endByte] ++ post) := by
    simp [Frame.bytes, hstart]
  have hfirst : FirstStart (pre ++ f.bytes ++ post) pre.length := hw ▸ firstStart_append pre _ hpre
  have hlen : pre.length + 7 ≤ (pre ++ f.bytes ++ post).length := by simp [Frame.bytes]
  rcases frameSearch_cases (pre ++ f.bytes ++ post) with ⟨e, -⟩ | ⟨-, hnone, -⟩ | ⟨i, hi, h⟩
  · simp [Frame.bytes] at e
  · exact absurd hfirst.1 (hnone _)
  · obtain rfl := hi.unique hfirst
    obtain ⟨-, e⟩ := h.resolve_left fun h => absurd hlen h.1.not_ge
    have hframe : frameAt (pre ++ f.bytes ++ post) pre.length = f :=
      Frame.bytes_injective (by rw [frameAt_bytes _ _ hlen]; simp [Frame.bytes])
    rw [e, hframe]

/-- A POLL that is answered, its read having delivered a frame, answers the reading of that frame. -/
theorem responses_of_poll_frame {pre post : Window} {f : Frame} (h : exec .poll s = .next t) (hs : s.sess = .opened)
    (hr : s.nextRead = .bytes (pre ++ f.bytes ++ post)) (hpre : startByte ∉ pre) (hstart : f.start = startByte) :
    t.responses = readingOf s.config.voutTie s.cfg f :: s.responses := by
  have hframe := frameSearch_append pre post f hpre hstart
  rw [exec_poll] at h
  rcases execPoll_cases s with ⟨hs', -⟩ | ⟨hs', -⟩ | ⟨-, hr', -⟩ | ⟨_, _, _, _, e⟩ | ⟨w, why, -, hr', -, hf, -⟩ |
    ⟨w, g, -, hr', -, hf, e⟩ | ⟨hs', -⟩
  · simp [hs] at hs'
  · simp [hs] at hs'
  · simp [hr] at hr'
  · simp [e] at h
  · cases hr.symm.trans hr'
    cases hframe.symm.trans hf
  · cases hr.symm.trans hr'
    cases hframe.symm.trans hf
    cases e.symm.trans h
    rfl
  · simp [hs] at hs'

theorem measurement_of_reading {r : Response} (h : r.status = .reading) :
    r.measurement = some ⟨(r.voutQ.toNat : Rat) / 10000, (r.kQ.toNat : Rat) / 10000, (r.densQ.toNat : Rat) / 100000000⟩ :=
  if_pos h

theorem readingOf_voutQ_toNat (tie : Tie) (cfg : Cfg) (f : Frame) :
    (readingOf tie cfg f).voutQ.toNat = roundBy tie ((f.b1.toNat * 256 + f.b2.toNat) * 3125) 64 := by
  rw [← rawOf_toNat, ← voutOfRaw_toNat]
  exact vout_field_toNat _

theorem readingOf_kQ_of_fixed {cfg : Cfg} (hk : cfg.kmode = .fixed) (tie : Tie) (f : Frame) :
    (readingOf tie cfg f).kQ = cfg.kfix := by
  simp [readingOf, readingResponse, coeff, coeffFixed, hk]

theorem readingOf_kQ_toNat_of_stepped {cfg : Cfg} (hk : cfg.kmode = .stepped) (tie : Tie) (f : Frame) :
    (readingOf tie cfg f).kQ.toNat = lookupBand (readingOf tie cfg f).voutQ.toNat ktab * 10000 := by
  simp only [readingOf, readingResponse, coeff, hk, vout_field_toNat]
  exact coeffStepped_toNat _

/-- The rounded voltage is within half of its last place of the exact one, under either tie rule (R102). -/
theorem roundBy_near_vExact (tie : Tie) (raw : Nat) :
    |(roundBy tie (raw * 3125) 64 : Rat) / 10000 - vExact raw| ≤ 1 / 20000 := by
  obtain ⟨hlow, hhigh⟩ := roundBy_bounds tie (raw * 3125)
  have hlow' : (128 * roundBy tie (raw * 3125) 64 : Rat) ≤ 2 * (raw * 3125) + 64 := by exact_mod_cast hlow
  have hhigh' : (2 * (raw * 3125) : Rat) ≤ 128 * roundBy tie (raw * 3125) 64 + 64 := by exact_mod_cast hhigh
  rw [abs_le, vExact]
  constructor <;> linarith

theorem decimal_product (k v : Nat) : (k : Rat) / 10000 * ((v : Rat) / 10000) = ((k * v : Nat) : Rat) / (100000000 : Nat) := by
  push_cast; ring

/-- The truncated product, as a decimal, is the floor of the exact one (R130). -/
theorem decimal_trunc_eq_floor (k v : Nat) :
    ((k * v / 100000000 * 100000000 : Nat) : Rat) / 100000000 = ((⌊(k : Rat) / 10000 * ((v : Rat) / 10000)⌋ : Int) : Rat) := by
  rw [decimal_product, Rat.floor_natCast_div_natCast, ← Int.natCast_ediv, Int.cast_natCast, Nat.cast_mul, Nat.cast_ofNat]
  exact mul_div_cancel_right₀ _ (by norm_num)

/-- Settles O15: the answer is the frame's reading, whose fields are exact numbers, each over its power of ten. -/
theorem readingMeetsTheExposedContract : Obligations.ReadingMeetsTheExposedContract := by
  intro s t pre post b1 b2 b3 b4 b5 e hs hr hpre h
  have hresponses := responses_of_poll_frame (f := ⟨0xAA#8, b1, b2, b3, b4, b5, e⟩) h hs hr hpre rfl
  generalize hrd : readingOf s.config.voutTie s.cfg ⟨0xAA#8, b1, b2, b3, b4, b5, e⟩ = r at hresponses
  have hwf : r.WellFormed := hrd ▸ readingOf_wellFormed _ _ _
  refine ⟨r, _, hresponses, measurement_of_reading (hrd ▸ rfl), ?_, fun hk => ?_, fun hk => ⟨?_, rfl⟩, fun hd => ?_,
    fun hd => ?_⟩
  · rw [← hrd, readingOf_voutQ_toNat]
    exact_mod_cast roundBy_near_vExact s.config.voutTie (b1.toNat * 256 + b2.toNat)
  · rw [← hrd, readingOf_kQ_of_fixed hk]
  · have hkQ : r.kQ.toNat = lookupBand r.voutQ.toNat ktab * 10000 := hrd ▸ readingOf_kQ_toNat_of_stepped hk _ _
    rw [hkQ, Nat.cast_mul, Nat.cast_ofNat]
    exact mul_div_cancel_right₀ _ (by norm_num)
  · rw [hwf.density_precise (hrd ▸ hd), decimal_product]
    norm_num
  · rw [hwf.density_trunc (hrd ▸ hd)]
    exact decimal_trunc_eq_floor _ _

/-! ## The assembler's conversion of `k` (R73) -/

/-- The digits read after `acc` are its continuation: `acc` and the fraction, moved left by their number. -/
theorem digitsValue_eq (ds : List (Fin 10)) (acc : Nat) :
    (digitsValue ds acc : Rat) = (acc + fracValue ds) * 10 ^ ds.length := by
  induction ds generalizing acc with
  | nil => simp [digitsValue, fracValue]
  | cons d ds ih =>
    rw [digitsValue, ih, fracValue, List.length_cons]
    push_cast
    ring

/-- Up to four fractional digits the conversion is exact. -/
theorem kq_eq {d : Decimal} (h : d.frac.length ≤ 4) : (d.kq : Rat) = decimalValue d * 10 ^ 4 := by
  have hpow : (10 : Rat) ^ d.frac.length * 10 ^ (4 - d.frac.length) = 10 ^ 4 := by
    rw [← pow_add, Nat.add_sub_cancel' h]
  have hkq : (d.kq : Rat) = d.whole * 10000 + fracValue d.frac * (10 ^ d.frac.length * 10 ^ (4 - d.frac.length)) := by
    push_cast [Decimal.kq, digitsValue_eq]
    ring
  rw [hkq, hpow, decimalValue]
  ring

/-- What the assembler takes as a `k`, said of the number it is. -/
theorem wf_decimal_iff (d : Decimal) :
    d.wf = true ↔ d.negative = false ∧ d.frac.length ≤ 4 ∧ decimalValue d ≤ 4294967295 / 10000 := by
  have hbound (h : d.frac.length ≤ 4) : d.kq ≤ 4294967295 ↔ decimalValue d ≤ 4294967295 / 10000 := by
    rw [← Nat.cast_le (α := Rat), kq_eq h, le_div_iff₀ (by norm_num)]
    norm_num
  simp only [Decimal.wf, Bool.and_eq_true, Bool.not_eq_true', decide_eq_true_eq, and_assoc]
  exact and_congr_right fun _ => and_congr_right hbound

/-- A `k` that is taken loses nothing in CFG_KFIX's 32 bits. -/
theorem kfix_toNat {d : Decimal} (h : d.wf = true) : (d.kfix.toNat : Rat) = decimalValue d * 10 ^ 4 := by
  obtain ⟨-, hlen, -⟩ := (wf_decimal_iff d).1 h
  have hle : d.kq ≤ 4294967295 := of_decide_eq_true (Bool.and_eq_true_iff.1 h).2
  rw [Decimal.kfix, BitVec.toNat_ofNat, Nat.mod_eq_of_lt (by omega), kq_eq hlen]

/-- Settles O45: each line is its expansion, and its word the sum of R60's fields. -/
theorem pseudoInstructionsAssembleToTheirWords : Obligations.PseudoInstructionsAssembleToTheirWords := by
  refine ⟨⟨rfl, by decide⟩, fun d hd => ⟨_, if_pos hd, rfl, ?_⟩⟩
  rw [encode_init_toNat]
  norm_num [kfix_toNat hd, KMode.bit, DPol.bit]
  ring

/-! ## The assembler's keywords (R73) -/

theorem assemble_of_not_wf {l : AsmLine} (h : l.wf = false) : assemble l = none := by
  simp [assemble, h]

/-- A line's meaning depends on its keywords of each kind alone. -/
theorem assemble_init_congr {ks ks' : List InitKeyword} (hm : kmodesOf ks = kmodesOf ks') (hp : dpolsOf ks = dpolsOf ks')
    (hk : coefficientsOf ks = coefficientsOf ks') : assemble (.init ks) = assemble (.init ks') := by
  simp only [assemble, AsmLine.wf, hm, hp, hk] <;> rfl

theorem wf_init_iff (ks : List InitKeyword) :
    (AsmLine.init ks).wf = true ↔ (kmodesOf ks).length = 1 ∧ (dpolsOf ks).length = 1 ∧ (coefficientsOf ks).length ≤ 1 ∧
      (coefficientsOf ks).all Decimal.wf = true := by
  simp only [AsmLine.wf, Bool.and_eq_true, decide_eq_true_eq, and_assoc]

/-- A list of at most one element has one order. -/
theorem eq_of_perm_of_length_le_one {α : Type} {l l' : List α} (h : l.Perm l') (hl : l.length ≤ 1) : l = l' := by
  match l, hl with
  | [], _ => exact h.nil_eq
  | [_], _ => exact List.singleton_perm.1 h

theorem assemble_init_perm {ks ks' : List InitKeyword} (h : ks.Perm ks') : assemble (.init ks) = assemble (.init ks') := by
  have hm : (kmodesOf ks).Perm (kmodesOf ks') := h.filterMap _
  have hp : (dpolsOf ks).Perm (dpolsOf ks') := h.filterMap _
  have hk : (coefficientsOf ks).Perm (coefficientsOf ks') := h.filterMap _
  have hwf : (AsmLine.init ks).wf = (AsmLine.init ks').wf := by
    rw [Bool.eq_iff_iff, wf_init_iff, wf_init_iff, hm.length_eq, hp.length_eq, hk.length_eq, hk.all_eq]
  cases hks : (AsmLine.init ks).wf with
  | false => rw [assemble_of_not_wf hks, assemble_of_not_wf (hwf ▸ hks)]
  | true =>
    obtain ⟨hm1, hp1, hk1, -⟩ := (wf_init_iff ks).1 hks
    exact assemble_init_congr (eq_of_perm_of_length_le_one hm hm1.le) (eq_of_perm_of_length_le_one hp hp1.le)
      (eq_of_perm_of_length_le_one hk hk1)

theorem assemble_init_with_k (m : KMode) (p : DPol) (d : Decimal) :
    assemble (.init [.kmode m, .dpol p, .k d]) = if d.wf then some (.init m p d.kfix) else none := by
  have hwf : (AsmLine.init [.kmode m, .dpol p, .k d]).wf = d.wf := by
    simp [AsmLine.wf, kmodesOf, dpolsOf, coefficientsOf]
  simp only [assemble, hwf] <;> rfl

/-- Settles O46: the order is that of lists with at most one keyword of each kind, and the `k` goes by the decimal's own
check. -/
theorem assemblerIsExactAndOrderFree : Obligations.AssemblerIsExactAndOrderFree := by
  refine ⟨fun _ _ => assemble_init_perm, fun m p d hneg hlen hle => ?_, fun m p => rfl, fun m p d hbad => ?_⟩
  · have hd : d.wf = true := (wf_decimal_iff d).2 ⟨hneg, hlen, hle⟩
    exact ⟨d.kfix, (assemble_init_with_k m p d).trans (if_pos hd), kfix_toNat hd⟩
  · have hd : ¬ d.wf = true := by
      rw [wf_decimal_iff]
      rintro ⟨hneg, hlen, hle⟩
      rcases hbad with h | h | h
      · simp [hneg] at h
      · exact absurd hlen h.not_ge
      · exact absurd hle h.not_ge
    exact (assemble_init_with_k m p d).trans (if_neg hd)

/-! ## The codes (R67, R68, R23) -/

/-- Settles O44: each code is read off its table. -/
theorem codesAreThoseOfTheTables : Obligations.CodesAreThoseOfTheTables := by
  refine ⟨rfl, fun st => ?_, rfl, rfl⟩
  cases st <;> decide

end Sys2Proof.Machine

/-! Family 40_framer: FRAME by the first START of its window (R82 to R90). -/

namespace Sys2Proof.Machine

variable {w : Window} {f : Frame} {i j : Nat}

/-! ## The first START (R83) -/

/-- A window with a START has a first one, at or before it. -/
theorem exists_firstStart_le (h : w[j]? = some startByte) : ∃ i ≤ j, FirstStart w i := by
  rcases frameSearch_cases w with ⟨hw, -⟩ | ⟨-, hnone, -⟩ | ⟨i, hi, -⟩
  · simp [hw] at h
  · exact absurd h (hnone j)
  · exact ⟨i, not_lt.1 fun hji => hi.2 j hji h, hi⟩

theorem FirstStart.ne_nil (hi : FirstStart w i) : w ≠ [] := by
  rintro rfl
  simp [FirstStart] at hi

/-! ## What each kind of window gives (R82, R84) -/

theorem frameSearch_of_noStart (hw : w ≠ []) (hnone : ∀ j : Nat, w[j]? ≠ some startByte) :
    frameSearch w = .noFrame .noStart := by
  rcases frameSearch_cases w with ⟨hnil, -⟩ | ⟨-, -, e⟩ | ⟨i, hi, -⟩
  · exact absurd hnil hw
  · exact e
  · exact absurd hi.1 (hnone i)

/-- From a first START on, only the length test is left. -/
theorem FirstStart.truncated_or_frame (hi : FirstStart w i) :
    (w.length < i + 7 ∧ frameSearch w = .noFrame .truncated) ∨
    (i + 7 ≤ w.length ∧ frameSearch w = .frame (frameAt w i)) := by
  rcases frameSearch_cases w with ⟨hnil, -⟩ | ⟨-, hnone, -⟩ | ⟨k, hk, h⟩
  · exact absurd hnil hi.ne_nil
  · exact absurd hi.1 (hnone i)
  · exact hk.unique hi ▸ h

theorem FirstStart.frameSearch_of_short (hi : FirstStart w i) (hlen : w.length < i + 7) :
    frameSearch w = .noFrame .truncated :=
  (hi.truncated_or_frame.resolve_right fun h => absurd hlen h.1.not_gt).2

theorem FirstStart.frameSearch_of_fits (hi : FirstStart w i) (hlen : i + 7 ≤ w.length) :
    frameSearch w = .frame (frameAt w i) :=
  (hi.truncated_or_frame.resolve_left fun h => absurd hlen h.1.not_ge).2

/-! ## Each result of FRAME, exactly (R82, R84, R87) -/

theorem frameSearch_eq_frame_iff :
    frameSearch w = .frame f ↔ ∃ i, FirstStart w i ∧ i + 7 ≤ w.length ∧ f.bytes = (w.drop i).take 7 := by
  constructor
  · intro h
    rcases frameSearch_cases w with ⟨-, e⟩ | ⟨-, -, e⟩ | ⟨i, hi, ⟨-, e⟩ | ⟨hlen, e⟩⟩
    · cases h.symm.trans e
    · cases h.symm.trans e
    · cases h.symm.trans e
    · cases h.symm.trans e
      exact ⟨i, hi, hlen, frameAt_bytes w i hlen⟩
  · rintro ⟨i, hi, hlen, hf⟩
    have hframe : frameAt w i = f := Frame.bytes_injective ((frameAt_bytes w i hlen).trans hf.symm)
    rw [hi.frameSearch_of_fits hlen, hframe]

theorem frameSearch_eq_empty_iff : frameSearch w = .noFrame .empty ↔ w = [] := by
  constructor
  · intro h
    rcases frameSearch_cases w with ⟨hw, -⟩ | ⟨-, -, e⟩ | ⟨i, -, ⟨-, e⟩ | ⟨-, e⟩⟩
    · exact hw
    all_goals cases h.symm.trans e
  · rintro rfl
    rfl

theorem frameSearch_eq_noStart_iff :
    frameSearch w = .noFrame .noStart ↔ w ≠ [] ∧ ∀ j : Nat, w[j]? ≠ some startByte := by
  constructor
  · intro h
    rcases frameSearch_cases w with ⟨-, e⟩ | ⟨hw, hnone, -⟩ | ⟨i, -, ⟨-, e⟩ | ⟨-, e⟩⟩
    · cases h.symm.trans e
    · exact ⟨hw, hnone⟩
    all_goals cases h.symm.trans e
  · exact fun ⟨hw, hnone⟩ => frameSearch_of_noStart hw hnone

theorem frameSearch_eq_truncated_iff :
    frameSearch w = .noFrame .truncated ↔ ∃ i, FirstStart w i ∧ w.length < i + 7 := by
  constructor
  · intro h
    rcases frameSearch_cases w with ⟨-, e⟩ | ⟨-, -, e⟩ | ⟨i, hi, ⟨hlen, -⟩ | ⟨-, e⟩⟩
    · cases h.symm.trans e
    · cases h.symm.trans e
    · exact ⟨i, hi, hlen⟩
    · cases h.symm.trans e
  · exact fun ⟨_, hi, hlen⟩ => hi.frameSearch_of_short hlen

/-- Settles O20: each result of FRAME by the first START of the window. -/
theorem frameSearchMeetsItsRule : Obligations.FrameSearchMeetsItsRule := by
  refine fun w => ⟨fun f => frameSearch_eq_frame_iff.trans ?_, frameSearch_eq_empty_iff, frameSearch_eq_noStart_iff,
    frameSearch_eq_truncated_iff.trans ?_⟩
  · exact ⟨fun ⟨i, ⟨hat, hbefore⟩, hlen, hf⟩ => ⟨i, hlen, hat, hbefore, hf⟩,
      fun ⟨i, hlen, hat, hbefore, hf⟩ => ⟨i, ⟨hat, hbefore⟩, hlen, hf⟩⟩
  · exact ⟨fun ⟨i, ⟨hat, hbefore⟩, hlen⟩ => ⟨i, hlen, hat, hbefore⟩,
      fun ⟨i, hlen, hat, hbefore⟩ => ⟨i, ⟨hat, hbefore⟩, hlen⟩⟩

/-! ## The source's properties (R89, R90) -/

/-- Any START with six bytes after it makes a frame, at the first START. -/
theorem exists_frame_of_start (h : w[j]? = some startByte) (hlen : j + 7 ≤ w.length) :
    ∃ i ≤ j, FirstStart w i ∧ i + 7 ≤ w.length ∧ frameSearch w = .frame (frameAt w i) := by
  obtain ⟨i, hij, hi⟩ := exists_firstStart_le h
  have hfits : i + 7 ≤ w.length := by omega
  exact ⟨i, hij, hi, hfits, hi.frameSearch_of_fits hfits⟩

theorem exists_noFrame_of_noStart (hnone : ∀ j : Nat, w[j]? ≠ some startByte) : ∃ why, frameSearch w = .noFrame why := by
  by_cases hw : w = []
  · exact ⟨.empty, frameSearch_eq_empty_iff.2 hw⟩
  · exact ⟨.noStart, frameSearch_of_noStart hw hnone⟩

/-- R89(a): no frame is made of fewer than 7 bytes. -/
theorem exists_noFrame_of_length_lt (hlen : w.length < 7) : ∃ why, frameSearch w = .noFrame why := by
  cases h : frameSearch w with
  | noFrame why => exact ⟨why, rfl⟩
  | frame f =>
    obtain ⟨i, -, hfits, -⟩ := frameSearch_eq_frame_iff.1 h
    omega

/-- Settles O21: a START with six bytes after it makes the first START's frame, and of two STARTs 7 apart in 14 bytes the
earlier has them. -/
theorem framerHasTheSourcesProperties : Obligations.FramerHasTheSourcesProperties := by
  intro w
  refine ⟨fun j hj hlen => ?p1, ?p2, exists_noFrame_of_length_lt, fun hlen o ho hfirst _ => ?backToBack⟩
  case p1 =>
    obtain ⟨i, hij, hi, hfits, h⟩ := exists_frame_of_start hj (by omega)
    exact ⟨i, frameAt w i, hij, h, hi.1, hi.2, frameAt_bytes w i hfits, rfl⟩
  case p2 =>
    rintro (hnone | ⟨i, hat, hbefore, hshort⟩)
    · exact exists_noFrame_of_noStart hnone
    · have hi : FirstStart w i := ⟨hat, hbefore⟩
      exact ⟨.truncated, hi.frameSearch_of_short (by omega)⟩
  case backToBack =>
    obtain ⟨i, -, -, -, h⟩ := exists_frame_of_start hfirst (by omega)
    exact ⟨frameAt w i, h⟩

/-- Settles O22: the first START of such a window is the frame's own, and its seven bytes are the frame. -/
theorem framerDiscardsWhatSurroundsTheFrame : Obligations.FramerDiscardsWhatSurroundsTheFrame :=
  frameSearch_append

end Sys2Proof.Machine

/-! Family 41_scaler: DECODE as the rounded exact voltage, its range, its steps and its ties (R100 to R106). -/

namespace Sys2Proof.Machine

/-! ## The exact voltage, rounded (R101, R102) -/

theorem decodeFrame_toNat (t : Tie) (f : Frame) :
    (decodeFrame t f).toNat = roundBy t ((f.b1.toNat * 256 + f.b2.toNat) * 3125) 64 := by
  rw [decodeFrame, voutOfRaw_toNat, rawOf_toNat]

theorem vExact_in_units (raw : Nat) : vExact raw * 10000 = (raw * 3125 : Nat) / 64 := by
  rw [vExact]
  push_cast
  ring

theorem abs_roundBy_sub_vExact_le (t : Tie) (raw : Nat) :
    |(roundBy t (raw * 3125) 64 : Rat) - vExact raw * 10000| ≤ 1 / 2 := by
  obtain ⟨hlow, hhigh⟩ := abs_le.1 (roundBy_near_vExact t raw)
  exact abs_le.2 ⟨by linarith, by linarith⟩

/-- Halfway between two units, ties to even gives the even one. -/
theorem rne_even_of_tie {n : Nat} (htie : |(rne n 64 : Rat) - n / 64| = 1 / 2) : rne n 64 % 2 = 0 := by
  obtain ⟨-, -, heven⟩ := rne_bounds n
  rcases eq_or_eq_neg_of_abs_eq htie with habove | hbelow
  · have hup : (128 * rne n 64 : Rat) = 2 * n + 64 := by linarith
    exact heven (.inl (by exact_mod_cast hup))
  · have hdown : (2 * n : Rat) = 128 * rne n 64 + 64 := by linarith
    exact heven (.inr (by exact_mod_cast hdown))

/-- Settles O23: rounding is within half a unit of the exact voltage, and a value half a unit away is the even one. -/
theorem scalerRoundsTheExactVoltage : Obligations.ScalerRoundsTheExactVoltage := by
  intro f
  rw [decodeFrame_toNat]
  refine ⟨abs_roundBy_sub_vExact_le .halfEven _, fun htie => ?_⟩
  rw [vExact_in_units] at htie
  exact rne_even_of_tie htie

/-! ## The range and the steps of VOUT_Q (R104, R106) -/

/-- VOUT_Q is within half a unit of `RAW * 3125 / 64`, both sides multiplied by 128. -/
theorem voutOfRaw_bounds (t : Tie) (raw : BitVec 16) :
    128 * (voutOfRaw t raw).toNat ≤ 6250 * raw.toNat + 64 ∧ 6250 * raw.toNat ≤ 128 * (voutOfRaw t raw).toNat + 64 := by
  obtain ⟨hupper, hlower⟩ := roundBy_bounds t (raw.toNat * 3125)
  rw [voutOfRaw_toNat]
  constructor <;> omega

/-- Settles O24: VOUT_Q does not wrap, and its bounds are those of the exact voltage up to half a unit. -/
theorem voutStaysInItsRange : Obligations.VoutStaysInItsRange := by
  intro raw
  obtain ⟨hupper, hlower⟩ := voutOfRaw_bounds .halfEven raw
  refine ⟨voutOfRaw_toNat .halfEven raw, voutOfRaw_le .halfEven raw, ?tenBit, ?fiveVolts⟩
  case tenBit =>
    intro hraw
    omega
  case fiveVolts => constructor <;> intro h <;> omega

/-- Settles O25: a step of RAW is 48 units and 53/64, and the two roundings together take away at most one unit, so at
least 48 whole units are left. -/
theorem voutIsStrictlyIncreasing : Obligations.VoutIsStrictlyIncreasing := by
  intro t a b hab
  obtain ⟨ha, -⟩ := voutOfRaw_bounds t a
  obtain ⟨-, hb⟩ := voutOfRaw_bounds t b
  omega

/-! ## The ties (R105) -/

/-- The two tie rules part only at a tie whose lower neighbour is even. -/
theorem rne_ne_roundHalfUp_iff (n : Nat) : rne n 64 ≠ roundHalfUp n 64 ↔ n % 64 = 32 ∧ n / 64 % 2 = 0 := by
  unfold rne roundHalfUp
  split_ifs <;> omega

theorem mul_3125_tie_iff (raw : Nat) : raw * 3125 % 64 = 32 ↔ raw % 64 = 32 := by
  omega

/-- Of the ties, every other one has an even lower neighbour: at `64 * q + 32` it is `3125 * q + 1562`, even as `q` is. -/
theorem mul_3125_tie_even_iff (raw : Nat) : raw * 3125 % 64 = 32 ∧ raw * 3125 / 64 % 2 = 0 ↔ raw % 128 = 32 := by
  rw [mul_3125_tie_iff]
  by_cases htie : raw % 64 = 32
  · obtain ⟨q, rfl⟩ : ∃ q, raw = 64 * q + 32 := ⟨raw / 64, by omega⟩
    have hlower : (64 * q + 32) * 3125 / 64 = q + 2 * (1562 * q + 781) := by omega
    rw [hlower, Nat.add_mul_mod_self_left]
    omega
  · exact iff_of_false (fun h => htie h.1) (by omega)

/-- Settles O26: half to even stays below at the ties with an even lower neighbour, where half away from zero goes up. -/
theorem tieRulesDifferExactlyAtRaw32Mod128 : Obligations.TieRulesDifferExactlyAtRaw32Mod128 := by
  refine fun raw => ⟨mul_3125_tie_iff raw.toNat, ?_⟩
  calc voutOfRaw .halfEven raw ≠ voutOfRaw .halfUp raw
      ↔ rne (raw.toNat * 3125) 64 ≠ roundHalfUp (raw.toNat * 3125) 64 := by
        rw [Ne, ← BitVec.toNat_inj, voutOfRaw_toNat, voutOfRaw_toNat]; rfl
    _ ↔ raw.toNat * 3125 % 64 = 32 ∧ raw.toNat * 3125 / 64 % 2 = 0 := rne_ne_roundHalfUp_iff _
    _ ↔ raw.toNat % 128 = 32 := mul_3125_tie_even_iff raw.toNat

end Sys2Proof.Machine

/-! Family 42_calibration: the stepped coefficient's bands, the strategy, the product and the two density policies (R121 to
R131). -/

namespace Sys2Proof.Machine

/-! ## The bands of the table (R122, R124) -/

/-- A lookup passes over the bands whose bounds are not above the value. -/
theorem lookupBand_append {v : Nat} {pre : List Band} (post : List Band) (h : ∀ b ∈ pre, b.boundQ ≤ v) :
    lookupBand v (pre ++ post) = lookupBand v post := by
  induction pre with
  | nil => rfl
  | cons b bs ih =>
    obtain ⟨hb, hbs⟩ := List.forall_mem_cons.mp h
    exact (lookupBand_above hb).trans (ih hbs)

/-- The bounds increase (R30), so two neighbouring rows of the ROM bound the band of the second one. -/
theorem lookupBand_of_neighbours {v : Nat} {a b : Band} (hrows : [a, b] <:+: ktab) (ha : a.boundQ ≤ v) (hb : v < b.boundQ) :
    lookupBand v ktab = b.kint := by
  obtain ⟨pre, post, hktab⟩ := hrows
  have hsorted : ktab.Pairwise (fun a b => a.boundQ < b.boundQ) := by decide
  have hpassed : ∀ c ∈ pre ++ [a], c.boundQ ≤ v := by
    intro c hc
    rw [← hktab, List.append_assoc, List.pairwise_append] at hsorted
    obtain ⟨-, -, hpre⟩ := hsorted
    rcases List.mem_append.mp hc with hc | hc
    · exact (hpre c hc a (by simp)).le.trans ha
    · exact List.mem_singleton.mp hc ▸ ha
  calc lookupBand v ktab
    _ = lookupBand v ((pre ++ [a]) ++ b :: post) := by rw [← hktab]; simp
    _ = lookupBand v (b :: post) := lookupBand_append _ hpassed
    _ = b.kint := lookupBand_below hb

theorem coeffStepped_of_neighbours {v : BitVec 22} (a b : Band) (ha : a.boundQ ≤ v.toNat) (hb : v.toNat < b.boundQ)
    (hrows : [a, b] <:+: ktab := by decide) : (coeffStepped v).toNat = b.kint * 10000 := by
  rw [coeffStepped_toNat, lookupBand_of_neighbours hrows ha hb]

theorem coeffStepped_of_lt_first {v : BitVec 22} (h : v.toNat < 460) : (coeffStepped v).toNat = 200 * 10000 := by
  rw [coeffStepped_toNat, ktab, lookupBand_below h]

/-- At or above the highest bound every band is passed over, and the fallback is left. -/
theorem coeffStepped_of_last_le {v : BitVec 22} (h : 1110 ≤ v.toNat) : (coeffStepped v).toNat = 3000 * 10000 := by
  have hbounds : ∀ b ∈ ktab, b.boundQ ≤ 1110 := by decide
  have hlookup := lookupBand_append [] fun b hb => (hbounds b hb).trans h
  rw [List.append_nil] at hlookup
  rw [coeffStepped_toNat, hlookup, lookupBand_fallback]

/-- No sample falls in the band of 600: `RAW = 10` gives at most 488, and `RAW = 11` at least 537. -/
theorem voutOfRaw_skips_band_600 (t : Tie) (raw : BitVec 16) :
    (voutOfRaw t raw).toNat < 490 ∨ 520 ≤ (voutOfRaw t raw).toNat := by
  obtain ⟨hupper, hlower⟩ := voutOfRaw_bounds t raw
  rcases Nat.lt_or_ge raw.toNat 11 with h | h
  · left; omega
  · right; omega

/-- Settles O28: each band of VOUT_Q lies between two neighbouring rows of the ROM, and a sample's VOUT_Q, within half a
unit of `RAW * 3125 / 64`, lies inside one band. -/
theorem steppedBandsAreThoseOfTheTable : Obligations.SteppedBandsAreThoseOfTheTable := by
  refine (and_iff_left_of_imp fun hbands => ⟨fun raw => ?samples, by decide⟩).mpr fun v => ?bands
  case bands =>
    refine ⟨fun h => coeffStepped_of_lt_first (by omega),
      fun ha hb => coeffStepped_of_neighbours ⟨460, 200⟩ ⟨490, 400⟩ ha (Nat.lt_succ_of_le hb),
      fun ha hb => coeffStepped_of_neighbours ⟨490, 400⟩ ⟨520, 600⟩ ha (Nat.lt_succ_of_le hb),
      fun ha hb => coeffStepped_of_neighbours ⟨520, 600⟩ ⟨550, 750⟩ ha (Nat.lt_succ_of_le hb),
      fun ha hb => coeffStepped_of_neighbours ⟨550, 750⟩ ⟨590, 900⟩ ha (Nat.lt_succ_of_le hb),
      fun ha hb => coeffStepped_of_neighbours ⟨590, 900⟩ ⟨650, 1000⟩ ha (Nat.lt_succ_of_le hb),
      fun ha hb => coeffStepped_of_neighbours ⟨650, 1000⟩ ⟨710, 1250⟩ ha (Nat.lt_succ_of_le hb),
      fun ha hb => coeffStepped_of_neighbours ⟨710, 1250⟩ ⟨760, 1400⟩ ha (Nat.lt_succ_of_le hb),
      fun ha hb => coeffStepped_of_neighbours ⟨760, 1400⟩ ⟨810, 1700⟩ ha (Nat.lt_succ_of_le hb),
      fun ha hb => coeffStepped_of_neighbours ⟨810, 1700⟩ ⟨860, 1800⟩ ha (Nat.lt_succ_of_le hb),
      fun ha hb => coeffStepped_of_neighbours ⟨860, 1800⟩ ⟨910, 1900⟩ ha (Nat.lt_succ_of_le hb),
      fun ha hb => coeffStepped_of_neighbours ⟨910, 1900⟩ ⟨1010, 2000⟩ ha (Nat.lt_succ_of_le hb),
      fun ha hb => coeffStepped_of_neighbours ⟨1010, 2000⟩ ⟨1110, 2200⟩ ha (Nat.lt_succ_of_le hb),
      fun h => coeffStepped_of_last_le h⟩
  case samples =>
    have hband := hbands (voutOfRaw .halfEven raw)
    obtain ⟨hupper, hlower⟩ := voutOfRaw_bounds .halfEven raw
    have hgap := voutOfRaw_skips_band_600 .halfEven raw
    refine ⟨?_, ?_, ?_, ?_, ?_, ?_, ?_, ?_, ?_, ?_, ?_, ?_, ?_, ?_⟩ <;> omega

/-! ## The strategy (R121, R125) -/

theorem coeff_of_stepped {c : Cfg} (h : c.kmode = .stepped) (v : BitVec 22) : coeff c v = coeffStepped v := by
  rw [coeff, h]

theorem coeff_of_fixed {c : Cfg} (h : c.kmode = .fixed) (v : BitVec 22) : coeff c v = c.kfix := by
  rw [coeff, h, coeffFixed]

/-- Settles O29: the fixed coefficient is CFG_KFIX at either voltage. -/
theorem coefficientFollowsTheStrategy : Obligations.CoefficientFollowsTheStrategy :=
  fun _ v v' => ⟨fun h => coeff_of_stepped h v,
    fun h => ⟨coeff_of_fixed h v, (coeff_of_fixed h v).trans (coeff_of_fixed h v').symm⟩⟩

/-! ## The product and the density (R126 to R131) -/

theorem coeffStepped_le (v : BitVec 22) : (coeffStepped v).toNat ≤ 30000000 := by
  rw [coeffStepped_toNat]
  exact Nat.mul_le_mul_right 10000 (lookupBand_ktab_le v.toNat)

/-- R127: no sample's VOUT_Q is above 3199951, so a bound on the coefficient bounds the product. -/
theorem product_voutOfRaw_le (t : Tie) (raw : BitVec 16) {k : BitVec 32} {n : Nat} (hk : k.toNat ≤ n) :
    (product k (voutOfRaw t raw)).toNat ≤ n * 3199951 := by
  rw [product_toNat]
  exact Nat.mul_le_mul hk (voutOfRaw_le t raw)

/-- Settles O30: the bounds are those of the largest coefficient, of 32 bits or of the table, at the largest VOUT_Q. -/
theorem productNeverWraps : Obligations.ProductNeverWraps := by
  intro k raw
  have hk : k.toNat ≤ 4294967295 := Nat.le_of_lt_succ k.isLt
  exact ⟨product_toNat k _, product_voutOfRaw_le .halfEven raw hk, by decide,
    product_voutOfRaw_le .halfEven raw (coeffStepped_le _), by decide⟩

/-- Settles O31: the product does not wrap, so PRECISE is exact and TRUNC divides the exact product. -/
theorem densityPoliciesAreExact : Obligations.DensityPoliciesAreExact := by
  intro k v
  refine ⟨product_toNat k v, ?trunc⟩
  case trunc => rw [density_trunc_toNat, product_toNat]

end Sys2Proof.Machine

/-! Family 43_session: the whole next state of INIT, POLL and RELEASE in each session state, and the table of transitions
(R140 to R154). -/

namespace Sys2Proof.Machine

variable {c : Word} {i : Instr} {s t : State} {es : List Event} {w : Window}

/-! ## A command as the word it is sent in (R72, R140) -/

theorem wf_eq_true (i : Instr) : i.wf = true := by cases i <;> rfl

theorem decode_encode (i : Instr) : decode (encode i) = .instr i := decodeOfEncodeIsTheCommand i (wf_eq_true i)

theorem perform_encode (i : Instr) (s : State) : perform (encode i) s = exec i s := perform_of_instr (decode_encode i)

theorem Answered.exec_eq (h : Answered (encode i) s t) : exec i s = .next t := (perform_encode i s).symm.trans h.perform_eq

theorem step_of_answered (hp : s.pending = .command c :: es) (h : Answered c (s.withPending es) t) : step s = .next t :=
  (step_of_command hp).trans h.perform_eq

theorem answered_of_step (hp : s.pending = .command c :: es) (h : step s = .next t) : Answered c (s.withPending es) t :=
  answered_of_perform ((step_of_command hp).symm.trans h)

/-- Settles O7: a step on a command word performs it, and performing is executing what the word decodes to. -/
theorem stepPerformsTheDecodedCommand : Obligations.StepPerformsTheDecodedCommand :=
  fun _ _ _ _ hp hd _ => (step_of_command hp).trans (perform_of_instr hd)

/-- Settles O8: an illegal number is an illegal word, whose one row of the transition table is taken in each session state. -/
theorem illegalWordAnswersIllegalCmd : Obligations.IllegalWordAnswersIllegalCmd := by
  intro s c es hp hill hs
  obtain ⟨why, hd⟩ := (exists_decode_illegal_iff c).2 hill
  exact step_of_answered hp (.illegal hd hs)

/-! ## The source calls with their answer written in (R41, R44) -/

theorem acquireCalled_of_answer {a : AcquireAnswer} (ha : s.nextAcquire = a) :
    s.acquireCalled = { s with
      acquireAnswers := s.acquireAnswers.tail
      sourceCalls := .acquire a :: s.sourceCalls
      draws := s.draws + 1 } := by
  rw [State.acquireCalled, ha]

theorem readCalled_of_answer {a : ReadAnswer} (ha : s.nextRead = a) :
    s.readCalled = { s with
      readAnswers := s.readAnswers.tail
      sourceCalls := .read s.config.readLen a :: s.sourceCalls
      draws := s.draws + 1 } := by
  rw [State.readCalled, ha]

theorem acquireCalled_calls_of_answer {a : AcquireAnswer} (ha : s.nextAcquire = a) :
    s.acquireCalled.sourceCalls = .acquire a :: s.sourceCalls := by
  rw [acquireCalled_of_answer ha]

theorem readCalled_calls_of_answer {a : ReadAnswer} (ha : s.nextRead = a) :
    s.readCalled.sourceCalls = .read s.config.readLen a :: s.sourceCalls := by
  rw [readCalled_of_answer ha]

/-! ## INIT (R141 to R143) -/

/-- Settles O10: one row of the transition table for each answer to the acquire, and one for a session that exists. -/
theorem initBuildsASessionFromClosed : Obligations.InitBuildsASessionFromClosed := by
  intro km dp kf s
  have hd := decode_encode (.init km dp kf)
  refine ⟨fun hs ha => ?opens, fun hs ha => ?fails, fun hs => (Answered.initInSession hd hs).exec_eq⟩
  case opens =>
    rw [(Answered.initOpens hd hs ha).exec_eq, acquireCalled_of_answer ha]
    rfl
  case fails =>
    rw [(Answered.initFails hd hs ha).exec_eq, acquireCalled_of_answer ha]
    rfl

/-! ## POLL without a reading (R145 to R148) -/

/-- Settles O11: the rows of POLL in CLOSED and in FAILED only raise. -/
theorem pollOutsideAnOpenSession : Obligations.PollOutsideAnOpenSession :=
  fun _ => ⟨fun hs => (Answered.pollClosed (decode_encode .poll) hs).exec_eq,
    fun hs => (Answered.pollFailed (decode_encode .poll) hs).exec_eq⟩

/-- Settles O12: the failed read leaves a session in FAILED, and RELEASE tears a session down from there too. -/
theorem pollReadFailureFailsTheSession : Obligations.PollReadFailureFailsTheSession := by
  intro s hs hr
  have hpoll := Answered.pollReadFails (decode_encode .poll) hs hr
  have hrelease := Answered.releaseSession (s := (s.readCalled.setSess .failed).raise .sourceUnavailable)
    (decode_encode .release) (.inr rfl)
  refine ⟨_, hpoll.exec_eq, ?_, _, hrelease.exec_eq, rfl, rfl⟩
  rw [readCalled_of_answer hr]
  rfl

/-- The three windows of R148 that hold no frame, each with its reason. -/
theorem frameSearch_of_noFrame {why : NoFrame}
    (h : (why = .empty ∧ w = []) ∨
      (why = .noStart ∧ w ≠ [] ∧ startByte ∉ w) ∨
      (why = .truncated ∧ ∃ pre post : Window, w = pre ++ startByte :: post ∧ startByte ∉ pre ∧ post.length < 6)) :
    frameSearch w = .noFrame why := by
  rcases h with ⟨rfl, hw⟩ | ⟨rfl, hw, hnone⟩ | ⟨rfl, pre, post, rfl, hpre, hpost⟩
  · exact frameSearch_eq_empty_iff.2 hw
  · exact frameSearch_of_noStart hw fun j hj => hnone (List.mem_of_getElem? hj)
  · refine (firstStart_append pre post hpre).frameSearch_of_short ?_
    rw [List.length_append, List.length_cons]
    omega

/-- Settles O13: FRAME finds no frame in such a window, and POLL answers the reason FRAME gives. -/
theorem pollWithoutAFrameIsUnavailable : Obligations.PollWithoutAFrameIsUnavailable := by
  intro s w why hs hr hl hwhy
  rw [(Answered.pollNoFrame (decode_encode .poll) hs hr hl (frameSearch_of_noFrame hwhy)).exec_eq, readCalled_of_answer hr]
  rfl

/-! ## POLL with a frame (R149) -/

/-- A POLL whose window holds a frame at its first START answers that frame's reading, and only its read is spent. -/
theorem exec_poll_of_frame {pre post : Window} {f : Frame} (hs : s.sess = .opened)
    (hr : s.nextRead = .bytes (pre ++ f.bytes ++ post)) (hpre : startByte ∉ pre) (hstart : f.start = startByte)
    (hlen : pre.length + 7 + post.length ≤ s.config.readLen) :
    exec .poll s = .next { s with
      readAnswers := s.readAnswers.tail
      sourceCalls := .read s.config.readLen (.bytes (pre ++ f.bytes ++ post)) :: s.sourceCalls
      draws := s.draws + 1
      responses := readingOf s.config.voutTie s.cfg f :: s.responses } := by
  have hl : (pre ++ f.bytes ++ post).length ≤ s.config.readLen := by
    rw [List.length_append, List.length_append]
    exact hlen
  have hf := frameSearch_append pre post f hpre hstart
  rw [(Answered.pollReading (decode_encode .poll) hs hr hl hf).exec_eq, readCalled_of_answer hr]
  rfl

/-- Settles O14: the frame at the first START is found, and the fields of its reading are exact numbers. -/
theorem pollWithAFrameIsAReading : Obligations.PollWithAFrameIsAReading := by
  intro s pre post b1 b2 b3 b4 b5 e hs hr hpre hlen
  have hpoll := exec_poll_of_frame (f := ⟨0xAA#8, b1, b2, b3, b4, b5, e⟩) hs hr hpre rfl hlen
  have hwf := readingOf_wellFormed s.config.voutTie s.cfg ⟨0xAA#8, b1, b2, b3, b4, b5, e⟩
  exact ⟨_, hpoll, rfl, rfl, rfl, readingOf_voutQ_toNat _ _ _, fun hk => readingOf_kQ_toNat_of_stepped hk _ _,
    fun hk => readingOf_kQ_of_fixed hk _ _, hwf.density_precise, hwf.density_trunc⟩

/-! ## POLLs are independent (R150) -/

/-- Each row of the transition table that a POLL takes is taken, with the same response, by every state that agrees on what a
POLL reads. -/
theorem Answered.poll_congr {s₁ s₂ t₁ : State} (h : Answered c s₁ t₁) (hpoll : decode c = .instr .poll)
    (hsess : s₁.sess = s₂.sess) (hcfg : s₁.cfg = s₂.cfg) (hconfig : s₁.config = s₂.config)
    (hread : s₁.nextRead = s₂.nextRead) :
    ∃ t₂ r, Answered c s₂ t₂ ∧ t₁.responses = r :: s₁.responses ∧ t₂.responses = r :: s₂.responses ∧
      t₁.sess = t₂.sess := by
  cases h with
  | pollClosed hd hs => exact ⟨_, _, .pollClosed hd (hsess ▸ hs), rfl, rfl, hsess⟩
  | pollFailed hd hs => exact ⟨_, _, .pollFailed hd (hsess ▸ hs), rfl, rfl, hsess⟩
  | pollReadFails hd hs hr => exact ⟨_, _, .pollReadFails hd (hsess ▸ hs) (hread ▸ hr), rfl, rfl, rfl⟩
  | pollNoFrame hd hs hr hl hf =>
    exact ⟨_, _, .pollNoFrame hd (hsess ▸ hs) (hread ▸ hr) (hconfig ▸ hl) hf, rfl, rfl, hsess⟩
  | pollReading hd hs hr hl hf =>
    rw [hcfg, hconfig]
    exact ⟨_, _, .pollReading hd (hsess ▸ hs) (hread ▸ hr) (hconfig ▸ hl) hf, rfl, rfl, hsess⟩
  | illegal hd | initOpens hd | initFails hd | initInSession hd | releaseClosed hd | releaseSession hd =>
    simp [hpoll] at hd

/-- A POLL is refused for SESS = 3 and for an answer that is too long (R42, R178). -/
theorem exec_poll_refused_cases {q : Refusal} (h : exec .poll s = .refused q) :
    (s.sess = .unassigned ∧ q = .sessUnassigned) ∨
    (∃ w, s.sess = .opened ∧ s.nextRead = .bytes w ∧ s.config.readLen < w.length ∧ q = .answerTooLong) := by
  rw [exec_poll] at h
  rcases execPoll_cases s with ⟨-, e⟩ | ⟨-, e⟩ | ⟨-, -, e⟩ | ⟨w, hs, hr, hl, e⟩ | ⟨w, why, -, -, -, -, e⟩ |
    ⟨w, f, -, -, -, -, e⟩ | ⟨hs, e⟩ <;> rw [e] at h <;> cases h
  · exact .inr ⟨w, hs, hr, hl, rfl⟩
  · exact .inl ⟨hs, rfl⟩

/-- Settles O17: the row a POLL takes, its response and its refusals test only SESS, CFG, the parameters and the read. -/
theorem pollsAreIndependent : Obligations.PollsAreIndependent := by
  intro s₁ s₂ hsess hcfg hconfig hread
  obtain ⟨refusesTooLong, refusesUnassigned⟩ := commandsRefuseWhatHasNoMeaning
  refine ⟨fun t₁ h => ?answered, fun q h => ?refused⟩
  case answered =>
    obtain ⟨t₂, r, h₂, hsame⟩ := (answered_of_exec_poll h).poll_congr (decode_encode .poll) hsess hcfg hconfig hread
    exact ⟨t₂, r, h₂.exec_eq, hsame⟩
  case refused =>
    rcases exec_poll_refused_cases h with ⟨hs, rfl⟩ | ⟨w, hs, hr, hl, rfl⟩
    · exact refusesUnassigned s₂ .poll (hsess ▸ hs)
    · exact refusesTooLong s₂ w (hsess ▸ hs) (hread ▸ hr) (hconfig ▸ hl)

/-! ## RELEASE (R151, R152) -/

/-- Settles O19: the teardown writes SESS, CFG and the draw counter, and the row of CLOSED only responds. -/
theorem releaseEndsTheSession : Obligations.ReleaseEndsTheSession :=
  fun _ => ⟨fun hs => ⟨_, (Answered.releaseSession (decode_encode .release) hs).exec_eq, rfl, rfl, rfl, rfl, rfl, rfl, rfl⟩,
    fun hs => (Answered.releaseClosed (decode_encode .release) hs).exec_eq⟩

/-! ## The table of transitions (R154) -/

/-- Settles O34: each way a command is answered is one row of the table. -/
theorem everyCommandTakesARowOfTheTransitionTable : Obligations.EveryCommandTakesARowOfTheTransitionTable := by
  intro s t c es hp h
  cases answered_of_step hp h with
  | illegal hd => exact ⟨_, rfl, rfl, rfl, .inl ⟨(exists_decode_illegal_iff c).1 ⟨_, hd⟩, rfl, rfl, rfl, rfl⟩⟩
  | initOpens hd hs ha =>
    exact ⟨_, rfl, rfl, rfl, .inr (.inl ⟨_, _, _, hd, .inl ⟨hs, rfl, rfl, acquireCalled_calls_of_answer ha, rfl⟩⟩)⟩
  | initFails hd hs ha =>
    exact ⟨_, rfl, rfl, rfl, .inr (.inl ⟨_, _, _, hd, .inr (.inl ⟨hs, hs, rfl, acquireCalled_calls_of_answer ha, rfl⟩)⟩)⟩
  | initInSession hd hs =>
    exact ⟨_, rfl, rfl, rfl, .inr (.inl ⟨_, _, _, hd, .inr (.inr ⟨hs, rfl, rfl, rfl, rfl⟩)⟩)⟩
  | pollClosed hd hs => exact ⟨_, rfl, rfl, rfl, .inr (.inr (.inl ⟨hd, rfl, .inl ⟨hs, hs, rfl, rfl⟩⟩))⟩
  | pollReadFails hd hs hr =>
    exact ⟨_, rfl, rfl, rfl, .inr (.inr (.inl ⟨hd, rfl, .inr (.inl ⟨hs, rfl, readCalled_calls_of_answer hr, rfl⟩)⟩))⟩
  | pollNoFrame hd hs hr hl hf =>
    exact ⟨_, rfl, rfl, rfl, .inr (.inr (.inl ⟨hd, rfl, .inr (.inr (.inl
      ⟨_, _, hs, hs, hf, hl, readCalled_calls_of_answer hr, rfl, rfl⟩))⟩))⟩
  | pollReading hd hs hr hl hf =>
    exact ⟨_, rfl, rfl, rfl, .inr (.inr (.inl ⟨hd, rfl, .inr (.inr (.inr (.inl
      ⟨_, _, hs, hs, hf, hl, readCalled_calls_of_answer hr, rfl⟩)))⟩))⟩
  | pollFailed hd hs =>
    exact ⟨_, rfl, rfl, rfl, .inr (.inr (.inl ⟨hd, rfl, .inr (.inr (.inr (.inr ⟨hs, hs, rfl, rfl⟩)))⟩))⟩
  | releaseClosed hd hs => exact ⟨_, rfl, rfl, rfl, .inr (.inr (.inr ⟨hd, hs, rfl, .inr ⟨hs, rfl, rfl⟩⟩))⟩
  | releaseSession hd hs => exact ⟨_, rfl, rfl, rfl, .inr (.inr (.inr ⟨hd, rfl, rfl, .inl ⟨hs, rfl⟩⟩))⟩

/-! ## FAILED is sticky (R146, R197) -/

/-- Of the rows of the transition table that start in FAILED, only RELEASE leaves it. -/
theorem Answered.sess_of_failed (h : Answered c s t) (hs : s.sess = .failed) :
    t.sess = .failed ∨ (t.sess = .closed ∧ c = 3#64) := by
  cases h with
  | illegal | initInSession | pollFailed => exact .inl hs
  | releaseSession hd => exact .inr ⟨rfl, (decode_release_iff c).1 hd⟩
  | initOpens _ hs' | initFails _ hs' | pollClosed _ hs' | releaseClosed _ hs' => simp [hs] at hs'
  | pollReadFails _ hs' | pollNoFrame _ hs' | pollReading _ hs' => simp [hs] at hs'

/-- Settles O39: a command other than RELEASE keeps FAILED, a reset closes, and a POLL has one row from FAILED, which only
raises. -/
theorem failedIsStickyUntilRelease : Obligations.FailedIsStickyUntilRelease := by
  intro s t hs h
  refine ⟨?sticky, fun es hp => ?poll⟩
  case sticky =>
    rcases step_next_cases h with ⟨-, rfl⟩ | ⟨c, es, hp, ha⟩ | ⟨es, hp, rfl⟩ | ⟨c, es, hp, rfl⟩
    · exact .inl hs
    · exact (ha.sess_of_failed hs).imp_right fun ⟨hclosed, hc⟩ => ⟨hclosed, _, es, hp, .inl (congrArg Event.command hc)⟩
    · exact .inr ⟨rfl, _, es, hp, .inr (.inl rfl)⟩
    · exact .inr ⟨rfl, _, es, hp, .inr (.inr ⟨c, rfl⟩)⟩
  case poll =>
    have hraise := step_of_answered hp (.pollFailed ((decode_poll_iff _).2 rfl) hs)
    cases h.symm.trans hraise
    exact ⟨hs, rfl, rfl⟩

end Sys2Proof.Machine

/-! Family 60_exceptions: the idle step, the order of checks in one command, what a fault leaves, and which steps are refused
(R171 to R189). -/

namespace Sys2Proof.Machine

variable {c : Word} {s t : State} {es : List Event} {q : Refusal}

/-! ## The idle step (R188) -/

/-- Settles O9: with no event pending the step has nothing to meet. -/
theorem idleStepHoldsTheState : Obligations.IdleStepHoldsTheState := fun _ => step_of_idle

/-! ## The order of checks (R177) -/

/-- An assigned SESS other than CLOSED is a session (R23). -/
theorem opened_or_failed (hclosed : s.sess ≠ .closed) (hassigned : s.sess ≠ .unassigned) :
    s.sess = .opened ∨ s.sess = .failed := by
  cases hs : s.sess with
  | closed => exact absurd hs hclosed
  | opened => exact .inl rfl
  | failed => exact .inr rfl
  | unassigned => exact absurd hs hassigned

/-- A legal command that is not POLL, in a state that allows it and with no acquire that fails, is answered OK. -/
theorem exists_answered_ok (hassigned : s.sess ≠ .unassigned) (hlegal : ¬ IllegalNumber c.toNat)
    (hpoll : decode c ≠ .instr .poll)
    (hinit : ∀ km dp kf, decode c = .instr (.init km dp kf) → s.sess = .closed ∧ s.nextAcquire = .ok) :
    ∃ t, Answered c s t ∧ t.responses = okResponse :: s.responses := by
  cases hd : decode c with
  | illegal why => exact absurd ((exists_decode_illegal_iff c).1 ⟨why, hd⟩) hlegal
  | instr i =>
    cases i with
    | init km dp kf =>
      obtain ⟨hs, ha⟩ := hinit km dp kf hd
      exact ⟨_, .initOpens hd hs ha, rfl⟩
    | poll => exact absurd hd hpoll
    | release =>
      by_cases hs : s.sess = .closed
      · exact ⟨_, .releaseClosed hd hs, rfl⟩
      · exact ⟨_, .releaseSession hd (opened_or_failed hs hassigned), rfl⟩

/-- Settles O35: each check, the ones before it passed, leaves one row of the transition table to take. -/
theorem checksComeInTheirOrder : Obligations.ChecksComeInTheirOrder := by
  intro s c es hp hassigned init poll answers notAllowed sourceFails
  have closed_of_init (hallowed : ¬ notAllowed) (hi : init) : s.sess = .closed := by
    by_contra hs
    exact hallowed (.inl ⟨hi, hs⟩)
  have opened_of_poll (hallowed : ¬ notAllowed) (hnotFailed : ¬ (poll ∧ s.sess = .failed)) (hpoll : poll) : s.sess = .opened :=
    (opened_or_failed (fun hs => hallowed (.inr ⟨hpoll, hs⟩)) hassigned).resolve_right fun hs => hnotFailed ⟨hpoll, hs⟩
  refine ⟨fun hill => ?illegalWord, fun _ hnotAllowed => ?sessionState, fun _ _ hpoll hs => ?pollInFailed,
    fun _ hallowed hnotFailed hfails => ?sourceFails, fun hlegal hallowed hnotFailed hsource =>
      ⟨fun w hpoll hr hl => ?tooLong, fun w why hpoll hr hl hf => ?noFrame, fun w f hpoll hr hl hf => ?reading,
        fun hpoll => ?ok⟩⟩
  case illegalWord =>
    obtain ⟨why, hd⟩ := (exists_decode_illegal_iff c).2 hill
    exact ⟨_, _, step_of_answered hp (.illegal hd hassigned), rfl, rfl, rfl⟩
  case sessionState =>
    rcases hnotAllowed with ⟨⟨km, dp, kf, hd⟩, hs⟩ | ⟨hpoll, hs⟩
    · exact ⟨_, _, step_of_answered hp (.initInSession hd (opened_or_failed hs hassigned)), rfl, rfl, rfl⟩
    · exact ⟨_, _, step_of_answered hp (.pollClosed hpoll hs), rfl, rfl, rfl⟩
  case pollInFailed =>
    have hstep := step_of_answered hp (.pollFailed hpoll hs)
    refine ⟨⟨_, _, hstep, rfl, rfl, rfl⟩, fun t h => ?_⟩
    cases h.symm.trans hstep
    rfl
  case sourceFails =>
    rcases hfails with ⟨⟨km, dp, kf, hd⟩, ha⟩ | ⟨hpoll, hr⟩
    · exact ⟨_, _, step_of_answered hp (.initFails hd (closed_of_init hallowed ⟨km, dp, kf, hd⟩) ha), rfl, rfl, rfl⟩
    · exact ⟨_, _, step_of_answered hp (.pollReadFails hpoll (opened_of_poll hallowed hnotFailed hpoll) hr), rfl, rfl, rfl⟩
  case tooLong =>
    calc step s
      _ = exec .poll (s.withPending es) := (step_of_command hp).trans (perform_of_instr hpoll)
      _ = .refused .answerTooLong :=
        commandsRefuseWhatHasNoMeaning.1 _ w (opened_of_poll hallowed hnotFailed hpoll) hr hl
  case noFrame =>
    exact ⟨_, _, step_of_answered hp (.pollNoFrame hpoll (opened_of_poll hallowed hnotFailed hpoll) hr hl hf), rfl, rfl, rfl⟩
  case reading =>
    exact ⟨_, _, step_of_answered hp (.pollReading hpoll (opened_of_poll hallowed hnotFailed hpoll) hr hl hf), rfl, rfl, rfl⟩
  case ok =>
    have hacquire (hi : init) : s.nextAcquire = .ok := by
      cases ha : s.nextAcquire with
      | ok => rfl
      | fail => exact absurd (.inl ⟨hi, ha⟩) hsource
    obtain ⟨t, ht, hresponses⟩ := exists_answered_ok (s := s.withPending es) hassigned hlegal hpoll
      fun km dp kf hd => ⟨closed_of_init hallowed ⟨km, dp, kf, hd⟩, hacquire ⟨km, dp, kf, hd⟩⟩
    exact ⟨t, _, step_of_answered hp ht, hresponses, rfl, rfl⟩

/-! ## Faults (R171, R180) -/

/-- Settles O36: the rows of the transition table that fault raise, and of them the failed read of a POLL alone writes SESS. -/
theorem faultsArePrecise : Obligations.FaultsArePrecise := by
  intro s t r c es hp h hresponses hfault
  cases answered_of_step hp h with
  | illegal | initInSession | pollClosed | pollFailed =>
    cases hresponses
    exact ⟨rfl, rfl, rfl, rfl, .inl rfl, fun _ => rfl⟩
  | initFails =>
    cases hresponses
    exact ⟨rfl, rfl, rfl, rfl, .inl rfl, fun hne => absurd rfl hne⟩
  | pollReadFails hd hs hr =>
    cases hresponses
    exact ⟨rfl, rfl, rfl, rfl, .inr ⟨hs, rfl, hd, hr, rfl⟩, fun hne => absurd rfl hne⟩
  | initOpens | pollNoFrame | pollReading | releaseClosed | releaseSession =>
    cases hresponses
    simp [okResponse, unavailableResponse, Response.blank, readingOf, readingResponse] at hfault

/-! ## Refusals (R178, R189) -/

/-- R178(c): with SESS = 3 every word is refused, an illegal one too (log 10). -/
theorem perform_of_unassigned (c : Word) (hs : s.sess = .unassigned) : perform c s = .refused .sessUnassigned := by
  cases hd : decode c with
  | illegal why => exact (perform_of_illegal hd).trans (bySession_of_unassigned hs _ _ _)
  | instr i => exact (perform_of_instr hd).trans (exec_of_unassigned i hs)

/-- A command is refused for SESS = 3, and a POLL in OPEN for an answer that is too long. -/
theorem perform_refused_iff :
    perform c s = .refused q ↔
      (q = .sessUnassigned ∧ s.sess = .unassigned) ∨
      (q = .answerTooLong ∧ s.sess = .opened ∧ decode c = .instr .poll ∧
        ∃ w, s.nextRead = .bytes w ∧ s.config.readLen < w.length) := by
  refine ⟨fun h => ?refused, ?cases⟩
  case cases =>
    rintro (⟨rfl, hs⟩ | ⟨rfl, hs, hd, w, hr, hl⟩)
    · exact perform_of_unassigned c hs
    · exact (perform_of_instr hd).trans (commandsRefuseWhatHasNoMeaning.1 s w hs hr hl)
  case refused =>
    cases hd : decode c with
    | illegal why =>
      rw [perform_of_illegal hd] at h
      rcases illegalCommand_cases s with ⟨-, e⟩ | ⟨hs, e⟩ <;> rw [e] at h <;> cases h
      exact .inl ⟨rfl, hs⟩
    | instr i =>
      rw [perform_of_instr hd] at h
      cases i with
      | init km dp kf =>
        rw [exec_init] at h
        rcases execInit_cases km dp kf s with ⟨-, -, e⟩ | ⟨-, -, e⟩ | ⟨-, e⟩ | ⟨hs, e⟩ <;> rw [e] at h <;> cases h
        exact .inl ⟨rfl, hs⟩
      | poll =>
        rcases exec_poll_refused_cases h with ⟨hs, rfl⟩ | ⟨w, hs, hr, hl, rfl⟩
        · exact .inl ⟨rfl, hs⟩
        · exact .inr ⟨rfl, hs, rfl, w, hr, hl⟩
      | release =>
        rw [exec_release] at h
        rcases execRelease_cases s with ⟨-, e⟩ | ⟨-, e⟩ | ⟨hs, e⟩ <;> rw [e] at h <;> cases h
        exact .inl ⟨rfl, hs⟩

@[simp] theorem withPending_nextRead (es : List Event) : (s.withPending es).nextRead = s.nextRead := rfl

/-- Settles O37: of the events, concurrent use is always refused and a command as `perform_refused_iff` says; `Fault` has no
value. -/
theorem stepsAreRefusedOnlyAsListed : Obligations.StepsAreRefusedOnlyAsListed := by
  intro s
  refine ⟨nofun, fun q => ?_⟩
  rcases step_cases s with ⟨hp, e⟩ | ⟨c, es, hp, e⟩ | ⟨ev, es, hp, hev, e⟩ | ⟨es, hp, e⟩ | ⟨c, es, hp, e⟩
  · simp [hp, e]
  · simp [hp, e, perform_refused_iff]
  · rcases hev with ⟨c, c', rfl⟩ | ⟨c, rfl⟩ <;> simp [hp, e, eq_comm]
  · simp [hp, e]
  · simp [hp, e]

end Sys2Proof.Machine

/-! Family 70_reset_and_hazards: what a reset leaves, alone and during a command, and a whole session run to its end (R190,
R191, R194). -/

namespace Sys2Proof.Machine

variable {c : Word} {s : State} {es : List Event}

/-! ## Reset (R190, R191) -/

/-- Settles O32: no handle is held with SESS = CLOSED, and nothing has been answered. -/
theorem resetMeetsTheInvariant : Obligations.ResetMeetsTheInvariant where
  sess_assigned := by decide
  config_wf := by decide
  handle_balance := by decide
  responses_wf := List.forall_mem_nil _

/-- Abandoning a command touches only the reads, their answers and the draw counter. -/
theorem abandon_frame (c : Word) (s : State) :
    (abandon c s).sess = s.sess ∧ (abandon c s).responses = s.responses ∧ (abandon c s).pending = s.pending ∧
      (abandon c s).config = s.config ∧ (abandon c s).acquireAnswers = s.acquireAnswers := by
  rcases abandon_cases c s with e | ⟨_, e⟩ | ⟨_, _, e⟩ <;> simp [e]

/-- The one source call an abandoned command may have made is the read of a POLL of an open session (log 14). -/
theorem abandon_reads (c : Word) (s : State) :
    ((abandon c s).sourceCalls = s.sourceCalls ∧ (abandon c s).readAnswers = s.readAnswers) ∨
    (s.sess = .opened ∧ c = 2#64 ∧ (abandon c s).sourceCalls = .read s.config.readLen s.nextRead :: s.sourceCalls ∧
      (abandon c s).readAnswers = s.readAnswers.tail) := by
  rcases abandon_cases c s with e | ⟨_, e⟩ | ⟨hd, hs, e⟩ <;> rw [e]
  · exact .inl ⟨rfl, rfl⟩
  · exact .inl ⟨rfl, rfl⟩
  · exact .inr ⟨hs, (decode_poll_iff c).1 hd, rfl, rfl⟩

/-- Settles O42: the reset gives back the handle of what the abandoned command leaves. -/
theorem resetReleasesAHeldHandle : Obligations.ResetReleasesAHeldHandle := by
  intro s es
  refine ⟨fun hp => ?alone, fun c hp => ?during⟩
  case alone =>
    exact ⟨_, step_of_reset hp, hardReset_sess _, hardReset_responses _, hardReset_pending _, hardReset_config _,
      hardReset_acquireAnswers _, hardReset_readAnswers _, giveBack_sourceCalls _⟩
  case during =>
    obtain ⟨hsess, hresponses, hpending, hconfig, hacquires⟩ := abandon_frame c (s.withPending es)
    have hcalls := giveBack_sourceCalls (abandon c (s.withPending es))
    rw [hsess] at hcalls
    refine ⟨_, _, step_of_resetDuring hp, hardReset_sess _, (hardReset_responses _).trans hresponses,
      (hardReset_pending _).trans hpending, (hardReset_config _).trans hconfig,
      (hardReset_acquireAnswers _).trans hacquires, ?reads, hcalls⟩
    case reads =>
      rw [hardReset_readAnswers]
      exact abandon_reads c (s.withPending es)

/-! ## A session from INIT to RELEASE (R194, R201) -/

/-- A session exists, and the byte source keeps its contract: what every POLL of a session finds and leaves. -/
structure State.InSession (s : State) : Prop where
  session : s.sess = .opened ∨ s.sess = .failed
  contract : s.SourceInContract

/-- What a POLL of a session answers (R147 to R149). -/
def Response.IsPollAnswer (r : Response) : Prop :=
  r.status = .reading ∨ r.status = .unavailable ∨ r.status = .sourceUnavailable

/-- A read uses up an answer, and the ones left keep the contract. -/
theorem State.SourceInContract.readCalled (h : s.SourceInContract) : s.readCalled.SourceInContract :=
  fun a ha => h a (List.mem_of_mem_tail ha)

/-- An INIT whose acquire is answered OK opens a session and takes the handle. -/
theorem exists_init_step {km : KMode} {dp : DPol} {kf : BitVec 32} (hs : s.sess = .closed) (ha : s.nextAcquire = .ok)
    (hc : s.SourceInContract) (hp : s.pending = .command (encode (.init km dp kf)) :: es) :
    ∃ t, step s = .next t ∧ t.InSession ∧ t.pending = es ∧ t.responses = okResponse :: s.responses ∧
      handleCount t.sourceCalls = 1 + handleCount s.sourceCalls := by
  refine ⟨_, step_of_answered hp (.initOpens (decode_encode _) hs ha), ⟨.inl rfl, hc⟩, rfl, rfl, ?handle⟩
  case handle =>
    have hacquire : (s.withPending es).nextAcquire = .ok := ha
    simp [hacquire]

/-- A POLL of a session is answered, and leaves the session and its handle: there is a row for every answer to its read that
the contract allows. -/
theorem exists_poll_step (h : s.InSession) (hp : s.pending = .command (encode .poll) :: es) :
    ∃ t r, step s = .next t ∧ t.InSession ∧ t.pending = es ∧ t.responses = r :: s.responses ∧
      handleCount t.sourceCalls = handleCount s.sourceCalls ∧ r.IsPollAnswer := by
  have hd := decode_encode .poll
  rcases h.session with hs | hs
  · cases hr : s.nextRead with
    | fail =>
      exact ⟨_, _, step_of_answered hp (.pollReadFails hd hs hr), ⟨.inr rfl, h.contract.readCalled⟩, rfl, rfl, by simp,
        .inr (.inr rfl)⟩
    | bytes w =>
      have hl : w.length ≤ s.config.readLen := by simpa [hr] using nextRead_inContract s h.contract
      cases hf : frameSearch w with
      | noFrame why =>
        exact ⟨_, _, step_of_answered hp (.pollNoFrame hd hs hr hl hf), ⟨.inl hs, h.contract.readCalled⟩, rfl, rfl, by simp,
          .inr (.inl rfl)⟩
      | frame f =>
        exact ⟨_, _, step_of_answered hp (.pollReading hd hs hr hl hf), ⟨.inl hs, h.contract.readCalled⟩, rfl, rfl, by simp,
          .inl rfl⟩
  · exact ⟨_, _, step_of_answered hp (.pollFailed hd hs), ⟨.inr hs, h.contract⟩, rfl, rfl, rfl, .inr (.inr rfl)⟩

/-- From within a session any number of POLLs and a RELEASE run to CLOSED, and the handle is given back. -/
theorem run_polls_release (n : Nat) (s : State) (h : s.InSession)
    (hp : s.pending = List.replicate n (.command (encode .poll)) ++ [.command (encode .release)]) :
    ∃ (t : State) (rs : List Response), Sys2Proof.core.run (n + 1) s = .next t ∧ t.Final ∧ t.sess = .closed ∧
      handleCount t.sourceCalls = -1 + handleCount s.sourceCalls ∧ rs.length = n ∧
      t.responses = okResponse :: (rs ++ s.responses) ∧ ∀ r ∈ rs, r.IsPollAnswer := by
  induction n generalizing s with
  | zero =>
    have hstep := step_of_answered hp (.releaseSession (decode_encode .release) h.session)
    exact ⟨_, [], run_succ_of_next Sys2Proof.core 0 s _ hstep, rfl, rfl, by simp [tearDown], rfl, rfl, List.forall_mem_nil _⟩
  | succ n ih =>
    obtain ⟨u, r, hstep, hu, hpu, hresponses, hhandle, hr⟩ := exists_poll_step h hp
    obtain ⟨t, rs, hrun, hfinal, hclosed, hcount, hlen, hall, hrs⟩ := ih u hu hpu
    refine ⟨t, rs ++ [r], (run_succ_of_next Sys2Proof.core (n + 1) s u hstep).trans hrun, hfinal, hclosed,
      by rw [hcount, hhandle], by simp [hlen], by simp [hall, hresponses], ?answers⟩
    case answers => simpa [or_imp, forall_and] using ⟨hrs, hr⟩

/-- Settles O43: INIT opens the session and takes the handle that the RELEASE after the POLLs gives back. -/
theorem aWellFormedSessionRunsToItsEnd : Obligations.AWellFormedSessionRunsToItsEnd := by
  intro n s km dp kf hs ha hc hp
  obtain ⟨u, hstep, hu, hpu, hresponses, hhandle⟩ := exists_init_step hs ha hc hp
  obtain ⟨t, rs, hrun, hfinal, hclosed, hcount, hlen, hall, hrs⟩ := run_polls_release n u hu hpu
  refine ⟨t, rs, (run_succ_of_next Sys2Proof.core (n + 1) s u hstep).trans hrun, hfinal, hclosed, by omega, hlen, ?_, hrs⟩
  rw [hall, hresponses]

end Sys2Proof.Machine

/-! Family other: twelve words of the spec's decoding vectors. -/

namespace Sys2Proof.Machine

variable {c : Word} {i : Instr}

/-! ## Why a word is illegal (R69, R72) -/

theorem decode_of_opcode (h₁ : opc c ≠ 0x01#8) (h₂ : opc c ≠ 0x02#8) (h₃ : opc c ≠ 0x03#8) :
    decode c = .illegal .opcode := by
  rw [decode, if_neg h₁, if_neg h₂, if_neg h₃]

theorem decode_of_init_reserved (hopc : opc c = 0x01#8) (hres : ¬ (res0 c = 0#6 ∧ res1 c = 0#16)) :
    decode c = .illegal .reservedBits := by
  rw [decode, if_pos hopc, if_neg hres]

theorem decode_of_poll_reserved (hopc : opc c = 0x02#8) (hres : aboveOpc c ≠ 0#56) :
    decode c = .illegal .reservedBits := by
  rw [decode, hopc, if_neg (by decide), if_pos rfl, if_neg hres]

theorem decode_of_release_reserved (hopc : opc c = 0x03#8) (hres : aboveOpc c ≠ 0#56) :
    decode c = .illegal .reservedBits := by
  rw [decode, hopc, if_neg (by decide), if_neg (by decide), if_pos rfl, if_neg hres]

/-! ## The vectors (95_test_vectors.md section 2.6) -/

theorem decode_of_eq_encode (h : c = encode i) : decode c = .instr i := h ▸ decode_encode i

/-- Settles O1: a legal vector is the encoding of its command, and an illegal one has another OPC or a reserved bit of its OPC
set. -/
theorem decodesWordsWrittenFromTheSpec : Obligations.DecodesWordsWrittenFromTheSpec := by
  refine ⟨?w1, ?w2, ?w5, ?w8, ?w9, ?poll, ?release, ?opcode, ?initRes0, ?initRes1, ?pollReserved, ?releaseReserved⟩
  case w1 | w2 | w5 | w8 | w9 => exact decode_of_eq_encode (by decide)
  case poll => exact (decode_poll_iff _).2 rfl
  case release => exact (decode_release_iff _).2 rfl
  case opcode => exact decode_of_opcode (by decide) (by decide) (by decide)
  case initRes0 | initRes1 => exact decode_of_init_reserved (by decide) (by decide)
  case pollReserved => exact decode_of_poll_reserved (by decide) (by decide)
  case releaseReserved => exact decode_of_release_reserved (by decide) (by decide)

end Sys2Proof.Machine
